-- ==== Sys2Proof/Word.lean ====
section
/-! DEFINITION. The machine's word, byte and register-number types (00_scope.md R8, R11). -/

namespace Sys2Proof

/-- A 32-bit register value, address or instruction word (R8). -/
abbrev Word := BitVec 32

/-- The smallest addressable unit, 8 bits (R8, R60). -/
abbrev Byte := BitVec 8

/-- A register field of an instruction: a number 0..31 naming R0..R31 (30_encoding.md R93). -/
abbrev RegNo := BitVec 5

end Sys2Proof
end

