-- ==== Sys2Proof/Config.lean ====
section
/-! DEFINITION. The configuration record `cfg` of 00_scope.md R9: what an implementation or a platform fixes,
as plain data, and the one source of free values. -/

namespace Sys2Proof

/-- Byte order of memory, `cfg.endian` (20_memory.md R61; D1 is OPEN). -/
inductive Endian
  | big
  | little
deriving DecidableEq, Repr

/-- The kind argument of `cfg.access_fault` (R76). -/
inductive AccessKind
  | read
  | write
  | fetch
deriving DecidableEq, Repr

/-- What a misaligned data access does, `cfg.misaligned` (R69, D3): the spec's choice, or its alternative DFAULT. -/
inductive MisalignPolicy
  | refuse
  | dfault
deriving DecidableEq, Repr

/-- `cfg.sleep_mode` (49_system.md R248, D21). -/
inductive SleepMode
  | sleep
  | standby
  | pause
deriving DecidableEq, Repr

/-- The units that ITLB, DTLB, ICACHE and DCACHE command (R249 to R252). -/
inductive CoreUnit
  | itlb
  | dtlb
  | icache
  | dcache
deriving DecidableEq, Repr

/-- One clause of `cfg.access_fault(addr, size, kind, mode)` (R62 to R64, R76, R77): an access that touches a byte of
`base .. base + len - 1` and matches the other fields fails. `none` matches everything. -/
structure FaultRule where
  base : Nat
  len : Nat
  kind : Option AccessKind
  size : Option Nat
  supervisor : Option Bool
deriving DecidableEq, Repr

/-- One clause of `cfg.translate(addr, kind, mode)` (00_scope.md R9, 20_memory.md R76): an address that agrees with `virt`
in the bits of `mask`, by an access that matches the other fields, has those bits replaced by those of `phys`. Bits 1 and 0
of `mask` do not count (DESIGN CHOICE, log 7). `none` matches everything. -/
structure TranslateRule where
  mask : Word
  virt : Word
  phys : Word
  kind : Option AccessKind
  supervisor : Option Bool
deriving DecidableEq, Repr

/-- What `cfg.module_read` answers (R241): a fixed value, a value that nothing is known of, or ILLINS. -/
inductive ReadAnswer
  | holds (v : Word)
  | varies
  | illins
deriving DecidableEq, Repr

/-- What `cfg.module_write` answers (R242): the module takes the value, or ILLINS. -/
inductive WriteAnswer
  | accepted
  | illins
deriving DecidableEq, Repr

/-- What `cfg.module_op` answers (R249 to R252): the unit takes the command, or ILLINS. `done true` is a command
after which earlier stores are seen by fetch (R251's "except through rule R81"). -/
inductive OpAnswer
  | done (publishes : Bool)
  | illins
deriving DecidableEq, Repr

/-- One clause of `cfg.module_read(id, n, mode)` (D19). -/
structure ReadRule where
  id : BitVec 3
  num : BitVec 9
  supervisor : Option Bool
  answer : ReadAnswer
deriving DecidableEq, Repr

/-- One clause of `cfg.module_write(id, n, v, mode)` (D19); `value = none` matches every value. -/
structure WriteRule where
  id : BitVec 3
  num : BitVec 9
  value : Option Word
  supervisor : Option Bool
  answer : WriteAnswer
deriving DecidableEq, Repr

/-- One clause of `cfg.module_op(unit, cmd, addr, mode)` (D20); `addr = none` matches every address. -/
structure OpRule where
  unit : CoreUnit
  cmd : BitVec 4
  addr : Option Word
  supervisor : Option Bool
  answer : OpAnswer
deriving DecidableEq, Repr

/-- The configuration record of R9. No step changes it (R66). -/
structure Config where
  /-- `cfg.endian` (R61). -/
  endian : Endian
  /-- `cfg.misaligned` (R69). -/
  misaligned : MisalignPolicy
  /-- `cfg.access_fault`: an access fails exactly when some clause matches (D6, D29, D32). -/
  faults : List FaultRule
  /-- `cfg.translate`: the first matching clause translates, none matching is the identity (D7). -/
  translations : List TranslateRule
  /-- `cfg.debug_host_mode` (60_exceptions.md R288, D15). -/
  debugHostMode : Bool
  /-- `cfg.sleep_mode` (R248). -/
  sleepMode : SleepMode
  /-- `cfg.sleep_pause_supported` (R248, U8). -/
  pauseSupported : Bool
  /-- The platform says that a fetch sees the stores of the run (R342's "unless the platform says otherwise"). -/
  fetchSeesStores : Bool
  /-- `cfg.module_read`: the first matching clause answers, none matching is `refuse` (D19). -/
  moduleReads : List ReadRule
  /-- `cfg.module_write`: the first matching clause answers, none matching is `refuse` (D19). -/
  moduleWrites : List WriteRule
  /-- `cfg.module_op`: the first matching clause answers, none matching is `refuse` (D20). -/
  unitOps : List OpRule
deriving DecidableEq, Repr

/-- The defaults of 92_eei_decisions.md. Byte order has no default there (D1, OPEN): big-endian is the model's choice
(DESIGN CHOICE, log 1, unsafe), so no statement about a run may rest on it. Neither has the sleep mode nor
`cfg.sleep_pause_supported` (D21, U8): sleep mode, and no support of pause mode, are likewise the model's choices (DESIGN
CHOICE, log 23). -/
def Config.default : Config where
  endian := .big
  misaligned := .refuse
  faults := []
  translations := []
  debugHostMode := false
  sleepMode := .sleep
  pauseSupported := false
  fetchSeesStores := false
  moduleReads := []
  moduleWrites := []
  unitOps := []

/-- The free values, numbered by `State.freeNext`: values the spec calls "any value" or does not state (log 25).
It has no body, so a proof can know nothing of any of them. -/
opaque Config.freeWord : Nat → BitVec 32

end Sys2Proof
end

