-- ==== Sys2Proof/Machine/Memory.lean ====
section
/-! DEFINITION. Memory (20_memory.md R60 to R63): a sparse list of bytes in one canonical form, and the accesses of 1, 2
and 4 bytes in both byte orders. Alignment, access faults and translation are decided in Machine/Ops.lean. -/

namespace Sys2Proof.Machine

/-- Memory: (address, byte) pairs, addresses strictly rising, no byte equal to `Memory.unlisted`. -/
abbrev Memory := List Host.Cell

/-- What a byte that nothing has written or loaded reads as. The spec says "of arbitrary value, as the platform declares"
(70_reset_and_hazards.md R336); 0 is the model's choice (DESIGN CHOICE, log 10, unsafe). -/
def Memory.unlisted : Byte := 0#8

/-- The byte at an address (R60). -/
def Memory.read : Memory → Nat → Byte
  | [], _ => Memory.unlisted
  | (a, b) :: rest, x => if a = x then b else Memory.read rest x

/-- Memory without the byte at an address. -/
def Memory.erase (m : Memory) (x : Nat) : Memory := m.filter fun c => c.1 ≠ x

/-- A byte placed before the first higher address. -/
def Memory.place : Memory → Nat → Byte → Memory
  | [], x, v => [(x, v)]
  | (a, b) :: rest, x, v => if x < a then (x, v) :: (a, b) :: rest else (a, b) :: Memory.place rest x v

/-- Store one byte, keeping the canonical form: what an unlisted address reads as is not listed. -/
def Memory.write (m : Memory) (x : Nat) (v : Byte) : Memory :=
  if v = Memory.unlisted then m.erase x else (m.erase x).place x v

/-- Addresses from `lo` up, strictly rising, below 2^32, and no byte that reads as an unlisted one. -/
def Memory.canonicalFrom : Nat → Memory → Bool
  | _, [] => true
  | lo, (a, b) :: rest => lo ≤ a && a < 2 ^ 32 && b ≠ Memory.unlisted && Memory.canonicalFrom (a + 1) rest

/-- The canonical form of memory: equal memories are equal lists. -/
def Memory.wf (m : Memory) : Bool := Memory.canonicalFrom 0 m

/-- The halfword at an address, from its two bytes (R61). -/
def Memory.read16 (e : Endian) (m : Memory) (a : Nat) : BitVec 16 :=
  match e with
  | .big => m.read a ++ m.read (a + 1)
  | .little => m.read (a + 1) ++ m.read a

/-- The word at an address, from its four bytes (R61). -/
def Memory.read32 (e : Endian) (m : Memory) (a : Nat) : Word :=
  match e with
  | .big => m.read a ++ m.read (a + 1) ++ m.read (a + 2) ++ m.read (a + 3)
  | .little => m.read (a + 3) ++ m.read (a + 2) ++ m.read (a + 1) ++ m.read a

/-- Store a halfword (R63). -/
def Memory.write16 (e : Endian) (m : Memory) (a : Nat) (v : BitVec 16) : Memory :=
  match e with
  | .big => (m.write a (v.extractLsb' 8 8)).write (a + 1) (v.extractLsb' 0 8)
  | .little => (m.write a (v.extractLsb' 0 8)).write (a + 1) (v.extractLsb' 8 8)

/-- Store a word (R63). -/
def Memory.write32 (e : Endian) (m : Memory) (a : Nat) (v : Word) : Memory :=
  match e with
  | .big =>
    (((m.write a (v.extractLsb' 24 8)).write (a + 1) (v.extractLsb' 16 8)).write (a + 2) (v.extractLsb' 8 8)).write
      (a + 3) (v.extractLsb' 0 8)
  | .little =>
    (((m.write a (v.extractLsb' 0 8)).write (a + 1) (v.extractLsb' 8 8)).write (a + 2) (v.extractLsb' 16 8)).write
      (a + 3) (v.extractLsb' 24 8)

/-- The width of an access (R71). -/
inductive Size
  | byte
  | half
  | word
deriving DecidableEq, Repr

/-- The width in bytes (R71). -/
def Size.bytes : Size → Nat
  | .byte => 1
  | .half => 2
  | .word => 4

/-- `MemRead` of R62 after its checks: the value of the access, zero-extended to a word. -/
def Memory.load (e : Endian) (m : Memory) (a : Word) : Size → Word
  | .byte => (m.read a.toNat).setWidth 32
  | .half => (m.read16 e a.toNat).setWidth 32
  | .word => m.read32 e a.toNat

/-- `MemWrite` of R63 after its checks: the low bits of the value are stored. -/
def Memory.store (e : Endian) (m : Memory) (a : Word) (v : Word) : Size → Memory
  | .byte => m.write a.toNat (v.setWidth 8)
  | .half => m.write16 e a.toNat (v.setWidth 16)
  | .word => m.write32 e a.toNat v

/-- A strictly rising list of addresses with one more. -/
def insertAddress : List Nat → Nat → List Nat
  | [], x => [x]
  | a :: rest, x => if x < a then x :: a :: rest else if x = a then a :: rest else a :: insertAddress rest x

/-- A set of byte addresses with those of an access of `n` bytes at `a` added. -/
def markBytes (l : List Nat) (a : Nat) : Nat → List Nat
  | 0 => l
  | n + 1 => insertAddress (markBytes l a n) (a + n)

end Sys2Proof.Machine
end

