-- ==== Sys2Proof/Machine/State.lean ====
section
/-! DEFINITION. The state of the machine, the reasons a step can stop, and the state after reset (10_state.md). -/

namespace Sys2Proof.Machine

/-- SR (10_state.md R32): the five fields; bits 31..7 "always read as 0 and written are ignored", so they are not stored. -/
structure StatusReg where
  /-- Vector Base, bits 6..4 (R37). -/
  vb : BitVec 3
  /-- Supervisor Mode, bit 3 (R36). -/
  sm : Bool
  /-- Debug State, bit 2 (R35). -/
  ds : Bool
  /-- Debug Enable, bit 1 (R34). -/
  de : Bool
  /-- Interrupt Enable, bit 0 (R33). -/
  ie : Bool
deriving DecidableEq, Repr

/-- What a CPU waiting after SLEEP does (49_system.md R248); sleep and standby differ in nothing software can see. -/
inductive Power
  | running
  | sleep
  | standby
deriving DecidableEq, Repr

/-- The inputs of one step (00_scope.md R9, 60_exceptions.md R295). -/
structure StepInput where
  /-- `cfg.irq(step)`: the interrupt request level (R296). -/
  irq : Bool := false
  /-- A debug interrupt (R285). -/
  debugInterrupt : Bool := false
  /-- An instruction breakpoint matches at `pc` (R285). -/
  instrBreak : Bool := false
  /-- A data breakpoint matches the data access of the instruction at `pc`, with the DPC that the platform says (R292, D16). -/
  dataBreak : Option Word := none
  /-- A debug bootstrap request (R309). -/
  dboot : Bool := false
  /-- A manual reset request (R332). -/
  manualReset : Bool := false
deriving DecidableEq, Repr

/-- What the CPU sends to a module: a module register read (R241) or write (R242), or a unit command (R249 to R252). -/
inductive ModuleMsg
  | read (id : BitVec 3) (num : BitVec 9)
  | write (id : BitVec 3) (num : BitVec 9) (v : Word)
  | op (unit : CoreUnit) (cmd : BitVec 4) (addr : Word)
deriving DecidableEq, Repr

/-- The state: the registers and memory of 10_state.md R20, the power-down state of R48, the inputs and the configuration
record of 00_scope.md R9, and three fields of the model's own (`stored`, `moduleOut`, `freeNext`; INVENTORY.md, State). -/
structure State where
  /-- R0..R31 (R22). Slot 0 is never read (R23). -/
  regs : Vector Word 32
  /-- The address of the instruction in execution (R26). -/
  pc : Word
  /-- Status register (R32). -/
  sr : StatusReg
  /-- Saved SR of non-debug exceptions (R40). -/
  esr : Word
  /-- Saved PC of non-debug exceptions (R39). -/
  epc : Word
  /-- Saved SR of debug exceptions (R42). -/
  dsr : Word
  /-- Saved PC of debug exceptions (R41). -/
  dpc : Word
  /-- Memory (20_memory.md R60). -/
  mem : Memory
  /-- The byte addresses that stores of this run have written, strictly rising (R81). -/
  stored : List Nat
  /-- Running, or waiting after SLEEP (R248). -/
  power : Power
  /-- The inputs of the coming steps, one a step; none left: nothing is asserted. -/
  inputs : List StepInput
  /-- The messages sent to the modules, newest first. -/
  moduleOut : List ModuleMsg
  /-- The number of the next free value. -/
  freeNext : Nat
  /-- The configuration record; no step changes it (R66). -/
  cfg : Config
deriving DecidableEq, Repr

/-- Why the machine stops at an address or in a wait: the spec's `refuse` (70_reset_and_hazards.md R344). Each is SAFE:
the model claims nothing from there on. -/
inductive Fault
  /-- Raised by the fetch when the low two bits of `pc` are not 00 (10_state.md R29, 20_memory.md R70, D4). Safe. -/
  | misalignedFetch
  /-- Raised by a halfword or word load, store or SWAP at a misaligned address when `cfg.misaligned` is `refuse`
  (20_memory.md R69, D3). Safe. -/
  | misalignedData
  /-- Raised by exception entry and by resets when the vector word cannot be read (60_exceptions.md R300, D14). Safe. -/
  | vectorUnreadable
  /-- Raised by the fetch of a byte that a store or SWAP of this run has written, unless the platform says that fetch sees
  stores (20_memory.md R81, D9). Safe. -/
  | fetchOfStoredByte
  /-- Raised when an interrupt request reaches a sleeping CPU with SR.IE = 0 (49_system.md R248, D21). Safe. -/
  | wakeWithInterruptsMasked
deriving DecidableEq, Repr

/-- Why an instruction is given no behaviour: the spec's `refuse` (00_scope.md R12). Each is SAFE. -/
inductive Refusal
  /-- An instruction the model has not reached; raised by no arm of exec as the model stands. Safe. -/
  | notModelled (mnemonic : String)
  /-- Raised by MUL, which has an encoding and no operation (43_arithmetic.md R165, D26). Safe. -/
  | undescribedMul
  /-- Raised by MULU with Rh = Ra, not R0 (43_arithmetic.md R164, D25). Safe. -/
  | mulDestinationsCoincide
  /-- Raised by RCR and WCR with an index that names no register (49_system.md R243, R244, D18). Safe. -/
  | controlRegisterIndex
  /-- Raised by CLD and CST with a register number outside 0..511 (49_system.md R241, R242, D19). Safe. -/
  | moduleRegisterNumber
  /-- Raised by CLD and CST where the platform gives no answer (49_system.md R241, R242, D19). Safe. -/
  | moduleAccessUnknown
  /-- Raised by ITLB, DTLB, ICACHE and DCACHE where the platform gives no answer (49_system.md R249 to R252, D20). Safe. -/
  | unitCommandUnknown
  /-- Raised by SLEEP in pause mode where the implementation does not support it (49_system.md R248, U8). Safe. -/
  | pauseUnsupported
  /-- Raised by the step for a word with a printed-zero bit set (30_encoding.md R114, D10). Safe. -/
  | mustBeZeroField
deriving DecidableEq, Repr

/-- SR after a power-on reset, 0x00000008 (10_state.md R44). -/
def StatusReg.reset : StatusReg := ⟨0#3, true, false, false, false⟩

/-- The machine after a power-on reset with nothing loaded (10_state.md R51, 70_reset_and_hazards.md R331): R1..R31 zero,
SR = 8, `pc` the word at 0x80000000. ESR, EPC, DSR, DPC are "Undefined" in the spec; 0 is the model's choice (DESIGN
CHOICE, log 11, unsafe). The configuration is the default one (log 1, 6, 21, 22, 23) and no input comes (log 15). -/
def State.reset : State where
  regs := Vector.replicate 32 0#32
  pc := Memory.read32 Config.default.endian [] 0x80000000
  sr := StatusReg.reset
  esr := 0#32
  epc := 0#32
  dsr := 0#32
  dpc := 0#32
  mem := []
  stored := []
  power := .running
  inputs := []
  moduleOut := []
  freeNext := 0
  cfg := Config.default

end Sys2Proof.Machine
end

