-- ==== Sys2Proof/Machine/Update.lean ====
section
/-! DEFINITION. One update per field of State (but `cfg`, which nothing changes); Laws/State.lean says what each leaves
alone. -/

namespace Sys2Proof.Machine

/-- `regs` replaced. -/
def State.withRegs (s : State) (x : Vector Word 32) : State := { s with regs := x }

/-- `pc` replaced. -/
def State.withPc (s : State) (x : Word) : State := { s with pc := x }

/-- `sr` replaced. -/
def State.withSr (s : State) (x : StatusReg) : State := { s with sr := x }

/-- `esr` replaced. -/
def State.withEsr (s : State) (x : Word) : State := { s with esr := x }

/-- `epc` replaced. -/
def State.withEpc (s : State) (x : Word) : State := { s with epc := x }

/-- `dsr` replaced. -/
def State.withDsr (s : State) (x : Word) : State := { s with dsr := x }

/-- `dpc` replaced. -/
def State.withDpc (s : State) (x : Word) : State := { s with dpc := x }

/-- `mem` replaced. -/
def State.withMem (s : State) (x : Memory) : State := { s with mem := x }

/-- `stored` replaced. -/
def State.withStored (s : State) (x : List Nat) : State := { s with stored := x }

/-- `power` replaced. -/
def State.withPower (s : State) (x : Power) : State := { s with power := x }

/-- `inputs` replaced. -/
def State.withInputs (s : State) (x : List StepInput) : State := { s with inputs := x }

/-- `moduleOut` replaced. -/
def State.withModuleOut (s : State) (x : List ModuleMsg) : State := { s with moduleOut := x }

/-- `freeNext` replaced. -/
def State.withFreeNext (s : State) (x : Nat) : State := { s with freeNext := x }

end Sys2Proof.Machine
end

