-- ==== Sys2Proof/Machine/Operands.lean ====
section
/-! DEFINITION. Operand forms: register reads, immediates (30_encoding.md R94, R98), effective addresses (47_load_store.md
R200), branch and jump targets, and the control-register indices (10_state.md R31). -/

namespace Sys2Proof.Machine

/-- `x[i]` (00_scope.md R12): R0 reads as zero (10_state.md R23). -/
def State.reg (s : State) (r : RegNo) : Word :=
  if r = 0#5 then 0#32 else s.regs[r.toNat]'(r.isLt)

/-- `sext_N` (R12). -/
def sext {n : Nat} (v : BitVec n) : Word := v.signExtend 32

/-- `zext_N` (R12). -/
def zext {n : Nat} (v : BitVec n) : Word := v.setWidth 32

/-- The R+R address `x[Rb] + x[Rc]` (47_load_store.md R200); all address sums wrap (20_memory.md R74). -/
def eaReg (s : State) (rb rc : RegNo) : Word := s.reg rb + s.reg rc

/-- The scaled-index address `x[Rb] + (x[Rc] << k)` (R200). -/
def eaScaled (s : State) (rb rc : RegNo) (k : Nat) : Word := s.reg rb + (s.reg rc <<< k)

/-- The R+Imm address `x[Rb] + (sext_10(S10) << k)` (R200; scaled, C9). -/
def eaImm (s : State) (rb : RegNo) (s10 : BitVec 10) (k : Nat) : Word := s.reg rb + (sext s10 <<< k)

/-- The address of the following instruction, `pc + 4` (10_state.md R27), modulo 2^32 (D5). -/
def following (s : State) : Word := s.pc + 4#32

/-- `pc + 4 + (sext(S) << 2)`: the target of J (41_jump.md R136) and of the branches (42_branch.md R140, R147). -/
def relativeTarget {n : Nat} (s : State) (imm : BitVec n) : Word := following s + (sext imm <<< 2)

/-- The target of JA, `x[Rb] | (zext_10(U10) << 2)` (41_jump.md R137; OR, C4). -/
def absoluteTarget (s : State) (rb : RegNo) (u10 : BitVec 10) : Word := s.reg rb ||| (zext u10 <<< 2)

/-- The shift amount of SLL, SLR, SAR: the low 5 bits of the register (46_shift.md R190). -/
def shiftAmount (v : Word) : Nat := (v.extractLsb' 0 5).toNat

/-- The five control registers (10_state.md R31). -/
inductive ControlReg
  | sr
  | esr
  | epc
  | dsr
  | dpc
deriving DecidableEq, Repr

/-- The control register an index names (10_state.md R31); 3, 4 and 7 to 31 name none. -/
def controlRegOf (cr : BitVec 5) : Option ControlReg :=
  if cr = 0#5 then some .sr
  else if cr = 1#5 then some .esr
  else if cr = 2#5 then some .epc
  else if cr = 5#5 then some .dsr
  else if cr = 6#5 then some .dpc
  else none

/-- SR as a word: bits 31..7 read as 0 (10_state.md R32). -/
def StatusReg.toWord (r : StatusReg) : Word :=
  0#25 ++ r.vb ++ BitVec.ofBool r.sm ++ BitVec.ofBool r.ds ++ BitVec.ofBool r.de ++ BitVec.ofBool r.ie

/-- SR loaded whole from bits 6..0 of a word, as RTE does (49_system.md R247, D17). -/
def StatusReg.ofWord (v : Word) : StatusReg :=
  ⟨v.extractLsb' 4 3, v.getLsbD 3, v.getLsbD 2, v.getLsbD 1, v.getLsbD 0⟩

/-- SR as WCR writes it: SM is kept (10_state.md R38, 49_system.md R244). -/
def StatusReg.writtenBy (r : StatusReg) (v : Word) : StatusReg :=
  ⟨v.extractLsb' 4 3, r.sm, v.getLsbD 2, v.getLsbD 1, v.getLsbD 0⟩

/-- The word a control register reads as (49_system.md R243). -/
def State.control (s : State) : ControlReg → Word
  | .sr => s.sr.toWord
  | .esr => s.esr
  | .epc => s.epc
  | .dsr => s.dsr
  | .dpc => s.dpc

/-- A control register written by WCR (49_system.md R244). -/
def State.writeControl (s : State) (c : ControlReg) (v : Word) : State :=
  match c with
  | .sr => s.withSr (s.sr.writtenBy v)
  | .esr => s.withEsr v
  | .epc => s.withEpc v
  | .dsr => s.withDsr v
  | .dpc => s.withDpc v

end Sys2Proof.Machine
end

