-- ==== Sys2Proof/Machine/Platform.lean ====
section
/-! DEFINITION. The questions the machine asks its platform (00_scope.md R9): does an access fail, where in memory it
lies, what a module answers. -/

namespace Sys2Proof.Machine

/-- A field of a clause matches: `none` matches everything. -/
def matchesField {α : Type} [DecidableEq α] (pattern : Option α) (x : α) : Bool :=
  match pattern with
  | none => true
  | some p => p = x

/-- The access of `n` bytes at `a` touches a byte of the clause and has its kind, size and mode. -/
def faultRuleHits (r : FaultRule) (a : Word) (n : Nat) (kind : AccessKind) (supervisor : Bool) : Bool :=
  a.toNat < r.base + r.len && r.base < a.toNat + n && matchesField r.kind kind && matchesField r.size n &&
    matchesField r.supervisor supervisor

/-- `cfg.access_fault(addr, size, kind, mode)` (20_memory.md R62 to R64, R76, R77). -/
def accessFault (c : Config) (a : Word) (n : Nat) (kind : AccessKind) (supervisor : Bool) : Bool :=
  c.faults.any fun r => faultRuleHits r a n kind supervisor

/-- The bits of an address that a clause compares and replaces. -/
def translatedBits (r : TranslateRule) : Word := r.mask &&& 0xfffffffc#32

/-- The clause applies to the access at `a` of that kind and mode. -/
def translateRuleHits (r : TranslateRule) (a : Word) (kind : AccessKind) (supervisor : Bool) : Bool :=
  (a &&& translatedBits r = r.virt &&& translatedBits r) && matchesField r.kind kind && matchesField r.supervisor supervisor

/-- `cfg.translate(addr, kind, mode)` (00_scope.md R9, 20_memory.md R76): the identity where no clause applies (D7). -/
def translate (c : Config) (a : Word) (kind : AccessKind) (supervisor : Bool) : Word :=
  match c.translations.find? fun r => translateRuleHits r a kind supervisor with
  | none => a
  | some r => (a &&& ~~~translatedBits r) ||| (r.phys &&& translatedBits r)

/-- The place in memory of an access in the mode of the state (20_memory.md R76). -/
def State.physical (s : State) (kind : AccessKind) (a : Word) : Word := translate s.cfg a kind s.sr.sm

/-- `cfg.module_read(id, n, mode)` (49_system.md R241); `none` is `refuse`. -/
def moduleRead (c : Config) (id : BitVec 3) (num : BitVec 9) (supervisor : Bool) : Option ReadAnswer :=
  (c.moduleReads.find? fun r => r.id = id && r.num = num && matchesField r.supervisor supervisor).map (·.answer)

/-- `cfg.module_write(id, n, v, mode)` (49_system.md R242); `none` is `refuse`. -/
def moduleWrite (c : Config) (id : BitVec 3) (num : BitVec 9) (v : Word) (supervisor : Bool) : Option WriteAnswer :=
  (c.moduleWrites.find? fun r =>
    r.id = id && r.num = num && matchesField r.value v && matchesField r.supervisor supervisor).map (·.answer)

/-- `cfg.module_op(unit, cmd, addr, mode)` (49_system.md R249 to R252); `none` is `refuse`. -/
def unitOp (c : Config) (unit : CoreUnit) (cmd : BitVec 4) (addr : Word) (supervisor : Bool) : Option OpAnswer :=
  (c.unitOps.find? fun r =>
    r.unit = unit && r.cmd = cmd && matchesField r.addr addr && matchesField r.supervisor supervisor).map (·.answer)

end Sys2Proof.Machine
end

