-- ==== Sys2Proof/Machine/Ops.lean ====
section
/-! DEFINITION. The shared operations the meanings are made of: register writes, checked data accesses, taking an
exception, returning from one, the two resets that can happen during a run. -/

namespace Sys2Proof.Machine

/-- The outcome of a meaning, of a step. -/
abbrev Result := Host.Outcome State Fault Refusal

/-! ### Registers and the program counter -/

/-- `x[i] <- v` (00_scope.md R12): a write of R0 is ignored (10_state.md R23). -/
def State.writeReg (s : State) (r : RegNo) (v : Word) : State :=
  if r = 0#5 then s else s.withRegs (s.regs.set r.toNat v r.isLt)

/-- `pc <- pc + 4` (10_state.md R27). -/
def State.advance (s : State) : State := s.withPc (following s)

/-- The common end of an instruction that writes one register. -/
def writeAndAdvance (r : RegNo) (v : Word) (s : State) : Result := .next (s.writeReg r v).advance

/-- The common end of a branch (42_branch.md R140, R147). -/
def branchIf (taken : Bool) (s10 : BitVec 10) (s : State) : Result :=
  .next (s.withPc (if taken then relativeTarget s s10 else following s))

/-! ### Exceptions (60_exceptions.md) -/

/-- The exceptions taken through the vector table during a run (R280), resets apart. -/
inductive Exception
  | illins
  | ibrk
  | dbrk
  | sbrk
  | int
  | trap
  | dfault
  | ifault
deriving DecidableEq, Repr

/-- The exceptions that save into DSR and DPC (R285, R291). -/
def Exception.isDebug : Exception → Bool
  | .ibrk | .dbrk | .sbrk => true
  | .illins | .int | .trap | .dfault | .ifault => false

/-- The vector offset (R287). -/
def Exception.offset : Exception → Word
  | .illins => 0x04#32
  | .ibrk | .dbrk | .sbrk => 0x08#32
  | .int => 0x10#32
  | .trap => 0x14#32
  | .dfault | .ifault => 0x18#32

/-- The vector table base of host mode and of the debug bootstrap (R288). -/
def debugVectorBase : Word := 0xEC000000#32

/-- The vector table base of a power-on or manual reset (R288, 70_reset_and_hazards.md R331, R332). -/
def resetVectorBase : Word := 0x80000000#32

/-- The vector table base (R288): `3B'100 ‖ SR.VB ‖ 26B'0`, or 0xEC000000 in debug host mode. -/
def vectorBase (c : Config) (r : StatusReg) : Word :=
  if c.debugHostMode then debugVectorBase else 0b100#3 ++ r.vb ++ 0#26

/-- SR after a non-debug entry (R290): IE, DS cleared, SM set; VB and DE kept. -/
def StatusReg.enter (r : StatusReg) : StatusReg := { r with ie := false, ds := false, sm := true }

/-- SR after a debug entry (R291): DE, IE cleared, DS, SM set; VB kept. -/
def StatusReg.enterDebug (r : StatusReg) : StatusReg := { r with de := false, ds := true, ie := false, sm := true }

/-- `pc <- MemRead(vector address, 4)`, a supervisor data read (R290); an unreadable vector word stops (R300, D14). -/
def jumpThroughVector (va : Word) (s : State) : Result :=
  if accessFault s.cfg va 4 .read true then .fault .vectorUnreadable
  else .next (s.withPc (s.mem.read32 s.cfg.endian (translate s.cfg va .read true).toNat))

/-- SR and the given PC saved, and SR as the entry leaves it (R290, R291, R292). -/
def saveAndEnter (e : Exception) (savedPc : Word) (s : State) : State :=
  if e.isDebug then ((s.withDsr s.sr.toWord).withDpc savedPc).withSr s.sr.enterDebug
  else ((s.withEsr s.sr.toWord).withEpc savedPc).withSr s.sr.enter

/-- Taking an exception: R290 for the non-debug ones, R291 for the debug ones. The VB used is the one in SR before. -/
def takeException (e : Exception) (savedPc : Word) (s : State) : Result :=
  jumpThroughVector (vectorBase s.cfg s.sr + e.offset) (saveAndEnter e savedPc s)

/-- Return from an exception (49_system.md R247): SR and PC from DSR, DPC if SR.DS = 1, else from ESR, EPC. -/
def returnFromException (s : State) : State :=
  if s.sr.ds then (s.withSr (.ofWord s.dsr)).withPc s.dpc
  else (s.withSr (.ofWord s.esr)).withPc s.epc

/-- A privileged instruction (60_exceptions.md R303): ILLINS in user mode, before any of its effects, EPC its own address. -/
def privileged (s : State) (inSupervisor : Result) : Result :=
  if s.sr.sm then inSupervisor else takeException .illins s.pc s

/-! ### Resets during a run (70_reset_and_hazards.md R332, R333) -/

/-- Registers nothing is known of: R1..R31 are the free values from number `n` on. -/
def freeRegs (n : Nat) : Vector Word 32 := Vector.ofFn fun i => if i.val = 0 then 0#32 else Config.freeWord (n + i.val)

/-- The state a manual reset leaves, `pc` apart (R332, D22): ESR, EPC save, SR is 8, R1..R31, DSR and DPC are any value;
memory is kept (log 24). -/
def manualResetState (s : State) : State :=
  let saved := ((s.withEsr s.sr.toWord).withEpc s.pc).withSr StatusReg.reset
  let unknown := ((saved.withRegs (freeRegs s.freeNext)).withDsr (Config.freeWord (s.freeNext + 32))).withDpc
    (Config.freeWord (s.freeNext + 33))
  (unknown.withFreeNext (s.freeNext + 34)).withPower .running

/-- A manual reset (R332): through the vector at 0x80000000. -/
def manualReset (s : State) : Result := jumpThroughVector resetVectorBase (manualResetState s)

/-- The state a debug bootstrap leaves, `pc` apart (R309, R333, D22): DSR, DPC save, DS and SM set, IE and DE cleared;
SR.VB, R1..R31, ESR and EPC are any value; memory is kept (log 24). -/
def debugBootstrapState (s : State) : State :=
  let sr : StatusReg := ⟨(Config.freeWord s.freeNext).setWidth 3, true, true, false, false⟩
  let saved := ((s.withDsr s.sr.toWord).withDpc s.pc).withSr sr
  let unknown := ((saved.withRegs (freeRegs s.freeNext)).withEsr (Config.freeWord (s.freeNext + 32))).withEpc
    (Config.freeWord (s.freeNext + 33))
  (unknown.withFreeNext (s.freeNext + 34)).withPower .running

/-- A debug bootstrap (R333): through the vector at 0xEC000000, whatever SR.VB is (R288). -/
def debugBootstrap (s : State) : Result := jumpThroughVector debugVectorBase (debugBootstrapState s)

/-- The start of a run with a given platform and memory (R331, R336): what the spec calls "Undefined" (ESR, EPC, DSR, DPC)
is an argument. With `dboot` it starts at the debug bootstrap's vector instead (R333), with SR.DS = 1 (R35, R309); that all
else is then as Table 2-2 gives it for a power-on (SR = 0x0c, R1..R31 zero), where R333 leaves SR.VB and the registers after
a debug bootstrap unspecified, is the model's choice (DESIGN CHOICE, log 24, unsafe). -/
def powerOn (c : Config) (m : Memory) (inputs : List StepInput) (esr epc dsr dpc : Word) (dboot : Bool) : Result :=
  jumpThroughVector (if dboot then debugVectorBase else resetVectorBase)
    { State.reset with
      cfg := c, mem := m, inputs := inputs, esr := esr, epc := epc, dsr := dsr, dpc := dpc
      sr := { StatusReg.reset with ds := dboot } }

/-! ### Data accesses (20_memory.md R62, R63, R69) -/

/-- The data access of a load, a store or SWAP: where, how wide, and the kinds of access made there. -/
structure DataAccess where
  addr : Word
  size : Size
  kinds : List AccessKind
deriving DecidableEq, Repr

/-- What the checks made before an access answer. -/
inductive AccessCheck
  | ok
  | dfault
  | misaligned
deriving DecidableEq, Repr

/-- The address is not a multiple of the width (R68). -/
def isMisaligned (a : Word) (sz : Size) : Bool := a.toNat % sz.bytes ≠ 0

/-- The checks of R62 and R63, in order: alignment (R69), then `cfg.access_fault` for each kind of access made (for SWAP
both, before either access: 48_misc.md R235). -/
def checkAccess (s : State) (d : DataAccess) : AccessCheck :=
  if isMisaligned d.addr d.size then
    match s.cfg.misaligned with
    | .refuse => .misaligned
    | .dfault => .dfault
  else if d.kinds.any fun k => accessFault s.cfg d.addr d.size.bytes k s.sr.sm then .dfault
  else .ok

/-- An access that passes its checks goes on; DFAULT has EPC = the instruction's address and no other effect (60_exceptions.md
R283, R292). -/
def withAccess (d : DataAccess) (s : State) (go : Result) : Result :=
  match checkAccess s d with
  | .ok => go
  | .dfault => takeException .dfault s.pc s
  | .misaligned => .fault .misalignedData

/-- How a load extends the value of the access (R72). -/
inductive Extend
  | signed
  | unsigned
deriving DecidableEq, Repr

/-- The value of an access of the width, extended to a word (R72). -/
def extendTo (x : Extend) (sz : Size) (v : Word) : Word :=
  match x, sz with
  | .unsigned, _ => v
  | .signed, .byte => sext (v.setWidth 8)
  | .signed, .half => sext (v.setWidth 16)
  | .signed, .word => v

/-- The value at the address of an access (R62). -/
def State.loaded (s : State) (d : DataAccess) : Word := s.mem.load s.cfg.endian (s.physical .read d.addr) d.size

/-- The state with a value stored at the address of an access (R63), the bytes remembered for R81. -/
def State.storeAt (s : State) (d : DataAccess) (v : Word) : State :=
  let a := s.physical .write d.addr
  (s.withMem (s.mem.store s.cfg.endian a v d.size)).withStored (markBytes s.stored a.toNat d.size.bytes)

/-- A load (47_load_store.md R201). -/
def loadInto (ra : RegNo) (x : Extend) (d : DataAccess) (s : State) : Result :=
  withAccess d s (writeAndAdvance ra (extendTo x d.size (s.loaded d)) s)

/-- A store (47_load_store.md R201): the low bits of `x[Ra]`. -/
def storeFrom (ra : RegNo) (d : DataAccess) (s : State) : Result :=
  withAccess d s (.next (s.storeAt d (s.reg ra)).advance)

/-- SWAP (48_misc.md R235): one read, one write of the old register, then the register. -/
def swapWith (ra : RegNo) (d : DataAccess) (s : State) : Result :=
  withAccess d s (writeAndAdvance ra (s.loaded d) (s.storeAt d (s.reg ra)))

/-! ### Modules and units (49_system.md R241, R242, R249 to R252) -/

/-- A message sent to a module. -/
def State.send (s : State) (m : ModuleMsg) : State := s.withModuleOut (m :: s.moduleOut)

/-- A command sent to a unit, after the unit's answer: ILLINS with no other effect, or taken; a command that publishes makes
the stores of the run visible to fetch (R251, 20_memory.md R81). That the platform may answer ILLINS in supervisor
mode too, to a TLB or a cache command (R251, R252 give the answer for a privileged CMD in user mode), and that a TLB command
may publish, are the model's choices (DESIGN CHOICE, log 22). -/
def commandUnit (unit : CoreUnit) (cmd : BitVec 4) (addr : Word) (s : State) : Result :=
  match unitOp s.cfg unit cmd addr s.sr.sm with
  | none => .refused .unitCommandUnknown
  | some .illins => takeException .illins s.pc s
  | some (.done publishes) =>
    let sent := s.send (.op unit cmd addr)
    .next (if publishes then sent.withStored [] else sent).advance

end Sys2Proof.Machine
end

