-- ==== Sys2Proof/Machine/Arithmetic.lean ====
section
/-! DEFINITION. The arithmetic instructions (43_arithmetic.md). No flags, no overflow (R160). -/

namespace Sys2Proof.Machine

/-- ADD (R161). -/
def execAdd (ra rb rc : RegNo) (s : State) : Result :=
  writeAndAdvance ra (s.reg rb + s.reg rc) s

/-- ADDI (R162): the immediate is not scaled. -/
def execAddi (ra rb : RegNo) (s10 : BitVec 10) (s : State) : Result :=
  writeAndAdvance ra (s.reg rb + sext s10) s

/-- SUB (R163). -/
def execSub (ra rb rc : RegNo) (s : State) : Result :=
  writeAndAdvance ra (s.reg rb - s.reg rc) s

/-- The exact 64-bit unsigned product (R164). -/
def productUnsigned (x y : Word) : BitVec 64 := x.setWidth 64 * y.setWidth 64

/-- MULU (R164): the high word to Rh, the low word to Ra; Rh = Ra, not R0, is `refuse` (D25). -/
def execMulu (rh ra rb rc : RegNo) (s : State) : Result :=
  if rh = ra ∧ ra ≠ 0#5 then .refused .mulDestinationsCoincide
  else
    let p := productUnsigned (s.reg rb) (s.reg rc)
    .next ((s.writeReg rh (p.extractLsb' 32 32)).writeReg ra (p.extractLsb' 0 32)).advance

/-- MUL (R165): the encoding is recognised and the spec gives it no operation, `refuse` (D26). -/
def execMul (_rh _ra _rb _rc : RegNo) (_s : State) : Result :=
  .refused .undescribedMul

end Sys2Proof.Machine
end

