-- ==== Sys2Proof/Machine/Bitwise.lean ====
section
/-! DEFINITION. The bitwise instructions (45_bitwise.md); the 16-bit immediate is sign-extended in all three (R180). -/

namespace Sys2Proof.Machine

/-- AND (R181). -/
def execAnd (ra rb rc : RegNo) (s : State) : Result :=
  writeAndAdvance ra (s.reg rb &&& s.reg rc) s

/-- OR (R182). -/
def execOr (ra rb rc : RegNo) (s : State) : Result :=
  writeAndAdvance ra (s.reg rb ||| s.reg rc) s

/-- XOR (R183). -/
def execXor (ra rb rc : RegNo) (s : State) : Result :=
  writeAndAdvance ra (s.reg rb ^^^ s.reg rc) s

/-- ANDN (R184). -/
def execAndn (ra rb rc : RegNo) (s : State) : Result :=
  writeAndAdvance ra (s.reg rb &&& ~~~(s.reg rc)) s

/-- ANDI (R185). -/
def execAndi (ra rb : RegNo) (s16 : BitVec 16) (s : State) : Result :=
  writeAndAdvance ra (s.reg rb &&& sext s16) s

/-- ORI (R186). -/
def execOri (ra rb : RegNo) (s16 : BitVec 16) (s : State) : Result :=
  writeAndAdvance ra (s.reg rb ||| sext s16) s

/-- XORI (R187). -/
def execXori (ra rb : RegNo) (s16 : BitVec 16) (s : State) : Result :=
  writeAndAdvance ra (s.reg rb ^^^ sext s16) s

end Sys2Proof.Machine
end

