-- ==== Sys2Proof/Machine/Flags.lean ====
section
/-! DEFINITION. Arca has no flags (10_state.md R45). What other machines compute into flags are here the six relations of
the branches (42_branch.md R140, R147) and compares (44_compare.md R170), and the boolean result word. -/

namespace Sys2Proof.Machine

/-- Equal, all 32 bits (R141). -/
def relEq (x y : Word) : Bool := x = y

/-- Not equal (R142). -/
def relNe (x y : Word) : Bool := x ≠ y

/-- `<s`: less than as two's-complement numbers (R143). -/
def relLt (x y : Word) : Bool := x.toInt < y.toInt

/-- `>=s` (R144). -/
def relGe (x y : Word) : Bool := x.toInt ≥ y.toInt

/-- `<u`: less than as unsigned numbers (R145). -/
def relLtu (x y : Word) : Bool := x.toNat < y.toNat

/-- `>=u` (R146). -/
def relGeu (x y : Word) : Bool := x.toNat ≥ y.toNat

/-- The boolean result of a compare: 1 or 0 (44_compare.md R170). -/
def boolWord (b : Bool) : Word := if b then 1#32 else 0#32

end Sys2Proof.Machine
end

