-- ==== Sys2Proof/Machine/Branch.lean ====
section
/-! DEFINITION. The branches (42_branch.md). -/

namespace Sys2Proof.Machine

/-- BEQ (R141): taken if `x[Rb]` is equal `x[Ra]`. -/
def execBeq (rb ra : RegNo) (s10 : BitVec 10) (s : State) : Result :=
  branchIf (relEq (s.reg rb) (s.reg ra)) s10 s

/-- BNE (R142): taken if `x[Rb]` is not equal `x[Ra]`. -/
def execBne (rb ra : RegNo) (s10 : BitVec 10) (s : State) : Result :=
  branchIf (relNe (s.reg rb) (s.reg ra)) s10 s

/-- BLT (R143): taken if `x[Rb]` is signed less than `x[Ra]`. -/
def execBlt (rb ra : RegNo) (s10 : BitVec 10) (s : State) : Result :=
  branchIf (relLt (s.reg rb) (s.reg ra)) s10 s

/-- BGE (R144): taken if `x[Rb]` is signed greater than or equal `x[Ra]`. -/
def execBge (rb ra : RegNo) (s10 : BitVec 10) (s : State) : Result :=
  branchIf (relGe (s.reg rb) (s.reg ra)) s10 s

/-- BLTU (R145): taken if `x[Rb]` is unsigned less than `x[Ra]`. -/
def execBltu (rb ra : RegNo) (s10 : BitVec 10) (s : State) : Result :=
  branchIf (relLtu (s.reg rb) (s.reg ra)) s10 s

/-- BGEU (R146): taken if `x[Rb]` is unsigned greater than or equal `x[Ra]`. -/
def execBgeu (rb ra : RegNo) (s10 : BitVec 10) (s : State) : Result :=
  branchIf (relGeu (s.reg rb) (s.reg ra)) s10 s

/-- BEQI (R148): taken if `x[Rb]` is equal the sign-extended immediate. -/
def execBeqi (rb : RegNo) (s5 : BitVec 5) (s10 : BitVec 10) (s : State) : Result :=
  branchIf (relEq (s.reg rb) (sext s5)) s10 s

/-- BNEI (R149): taken if `x[Rb]` is not equal the sign-extended immediate. -/
def execBnei (rb : RegNo) (s5 : BitVec 5) (s10 : BitVec 10) (s : State) : Result :=
  branchIf (relNe (s.reg rb) (sext s5)) s10 s

/-- BEQUI (R150): taken if `x[Rb]` is equal the zero-extended immediate. -/
def execBequi (rb : RegNo) (u5 : BitVec 5) (s10 : BitVec 10) (s : State) : Result :=
  branchIf (relEq (s.reg rb) (zext u5)) s10 s

/-- BNEUI (R151): taken if `x[Rb]` is not equal the zero-extended immediate. -/
def execBneui (rb : RegNo) (u5 : BitVec 5) (s10 : BitVec 10) (s : State) : Result :=
  branchIf (relNe (s.reg rb) (zext u5)) s10 s

/-- BLTI (R152): taken if `x[Rb]` is signed less than the sign-extended immediate. -/
def execBlti (rb : RegNo) (s5 : BitVec 5) (s10 : BitVec 10) (s : State) : Result :=
  branchIf (relLt (s.reg rb) (sext s5)) s10 s

/-- BGEI (R153): taken if `x[Rb]` is signed greater than or equal the sign-extended immediate. -/
def execBgei (rb : RegNo) (s5 : BitVec 5) (s10 : BitVec 10) (s : State) : Result :=
  branchIf (relGe (s.reg rb) (sext s5)) s10 s

/-- BLTUI (R154): taken if `x[Rb]` is unsigned less than the zero-extended immediate. -/
def execBltui (rb : RegNo) (u5 : BitVec 5) (s10 : BitVec 10) (s : State) : Result :=
  branchIf (relLtu (s.reg rb) (zext u5)) s10 s

/-- BGEUI (R155): taken if `x[Rb]` is unsigned greater than or equal the zero-extended immediate. -/
def execBgeui (rb : RegNo) (u5 : BitVec 5) (s10 : BitVec 10) (s : State) : Result :=
  branchIf (relGeu (s.reg rb) (zext u5)) s10 s

end Sys2Proof.Machine
end

