-- ==== Sys2Proof/Machine/Compare.lean ====
section
/-! DEFINITION. The comparisons (44_compare.md). -/

namespace Sys2Proof.Machine

/-- SEQ (R171): 1 if `x[Rb]` is equal `x[Rc]`, else 0. -/
def execSeq (ra rb rc : RegNo) (s : State) : Result :=
  writeAndAdvance ra (boolWord (relEq (s.reg rb) (s.reg rc))) s

/-- SNE (R172): 1 if `x[Rb]` is not equal `x[Rc]`, else 0. -/
def execSne (ra rb rc : RegNo) (s : State) : Result :=
  writeAndAdvance ra (boolWord (relNe (s.reg rb) (s.reg rc))) s

/-- SLT (R173): 1 if `x[Rb]` is signed less than `x[Rc]`, else 0. -/
def execSlt (ra rb rc : RegNo) (s : State) : Result :=
  writeAndAdvance ra (boolWord (relLt (s.reg rb) (s.reg rc))) s

/-- SGE (R174): 1 if `x[Rb]` is signed greater than or equal `x[Rc]`, else 0. -/
def execSge (ra rb rc : RegNo) (s : State) : Result :=
  writeAndAdvance ra (boolWord (relGe (s.reg rb) (s.reg rc))) s

/-- SLTU (R175): 1 if `x[Rb]` is unsigned less than `x[Rc]`, else 0. -/
def execSltu (ra rb rc : RegNo) (s : State) : Result :=
  writeAndAdvance ra (boolWord (relLtu (s.reg rb) (s.reg rc))) s

/-- SGEU (R176): 1 if `x[Rb]` is unsigned greater than or equal `x[Rc]`, else 0. -/
def execSgeu (ra rb rc : RegNo) (s : State) : Result :=
  writeAndAdvance ra (boolWord (relGeu (s.reg rb) (s.reg rc))) s

end Sys2Proof.Machine
end

