-- ==== Sys2Proof/Machine/ImmediateLoad.lean ====
section
/-! DEFINITION. The immediate load (40_immediate_load.md). -/

namespace Sys2Proof.Machine

/-- LHI (R130): the 21 bits into bits 31..11, zeros below. -/
def execLhi (ra : RegNo) (u21 : BitVec 21) (s : State) : Result :=
  writeAndAdvance ra (zext u21 <<< 11) s

end Sys2Proof.Machine
end

