-- ==== Sys2Proof/Machine/Jump.lean ====
section
/-! DEFINITION. The jumps (41_jump.md). No delay slot (70_reset_and_hazards.md R340). -/

namespace Sys2Proof.Machine

/-- J (R136): link, then jump relative to the following instruction. -/
def execJ (ra : RegNo) (s21 : BitVec 21) (s : State) : Result :=
  .next ((s.writeReg ra (following s)).withPc (relativeTarget s s21))

/-- JA (R137): the target is computed from Rb before the link is written. -/
def execJa (ra rb : RegNo) (u10 : BitVec 10) (s : State) : Result :=
  .next ((s.writeReg ra (following s)).withPc (absoluteTarget s rb u10))

end Sys2Proof.Machine
end

