-- ==== Sys2Proof/Machine/LoadStore.lean ====
section
/-! DEFINITION. The loads and stores (47_load_store.md R200, R201). -/

namespace Sys2Proof.Machine

/-- LR8 (R202). -/
def execLr8 (ra rb rc : RegNo) (s : State) : Result :=
  loadInto ra .signed ⟨eaReg s rb rc, .byte, [.read]⟩ s

/-- LR8U (R203). -/
def execLr8u (ra rb rc : RegNo) (s : State) : Result :=
  loadInto ra .unsigned ⟨eaReg s rb rc, .byte, [.read]⟩ s

/-- LR16 (R204). -/
def execLr16 (ra rb rc : RegNo) (s : State) : Result :=
  loadInto ra .signed ⟨eaReg s rb rc, .half, [.read]⟩ s

/-- LR16U (R205). -/
def execLr16u (ra rb rc : RegNo) (s : State) : Result :=
  loadInto ra .unsigned ⟨eaReg s rb rc, .half, [.read]⟩ s

/-- LR32 (R206). -/
def execLr32 (ra rb rc : RegNo) (s : State) : Result :=
  loadInto ra .unsigned ⟨eaReg s rb rc, .word, [.read]⟩ s

/-- LX16 (R207). -/
def execLx16 (ra rb rc : RegNo) (s : State) : Result :=
  loadInto ra .signed ⟨eaScaled s rb rc 1, .half, [.read]⟩ s

/-- LX16U (R208). -/
def execLx16u (ra rb rc : RegNo) (s : State) : Result :=
  loadInto ra .unsigned ⟨eaScaled s rb rc 1, .half, [.read]⟩ s

/-- LX32 (R209). -/
def execLx32 (ra rb rc : RegNo) (s : State) : Result :=
  loadInto ra .unsigned ⟨eaScaled s rb rc 2, .word, [.read]⟩ s

/-- LD8 (R210). -/
def execLd8 (ra rb : RegNo) (s10 : BitVec 10) (s : State) : Result :=
  loadInto ra .signed ⟨eaImm s rb s10 0, .byte, [.read]⟩ s

/-- LD8U (R211). -/
def execLd8u (ra rb : RegNo) (s10 : BitVec 10) (s : State) : Result :=
  loadInto ra .unsigned ⟨eaImm s rb s10 0, .byte, [.read]⟩ s

/-- LD16 (R212). -/
def execLd16 (ra rb : RegNo) (s10 : BitVec 10) (s : State) : Result :=
  loadInto ra .signed ⟨eaImm s rb s10 1, .half, [.read]⟩ s

/-- LD16U (R213). -/
def execLd16u (ra rb : RegNo) (s10 : BitVec 10) (s : State) : Result :=
  loadInto ra .unsigned ⟨eaImm s rb s10 1, .half, [.read]⟩ s

/-- LD32 (R214). -/
def execLd32 (ra rb : RegNo) (s10 : BitVec 10) (s : State) : Result :=
  loadInto ra .unsigned ⟨eaImm s rb s10 2, .word, [.read]⟩ s

/-- SR8 (R215). -/
def execSr8 (ra rb rc : RegNo) (s : State) : Result :=
  storeFrom ra ⟨eaReg s rb rc, .byte, [.write]⟩ s

/-- SR16 (R216). -/
def execSr16 (ra rb rc : RegNo) (s : State) : Result :=
  storeFrom ra ⟨eaReg s rb rc, .half, [.write]⟩ s

/-- SR32 (R217). -/
def execSr32 (ra rb rc : RegNo) (s : State) : Result :=
  storeFrom ra ⟨eaReg s rb rc, .word, [.write]⟩ s

/-- SX16 (R218). -/
def execSx16 (ra rb rc : RegNo) (s : State) : Result :=
  storeFrom ra ⟨eaScaled s rb rc 1, .half, [.write]⟩ s

/-- SX32 (R219). -/
def execSx32 (ra rb rc : RegNo) (s : State) : Result :=
  storeFrom ra ⟨eaScaled s rb rc 2, .word, [.write]⟩ s

/-- SD8 (R220). -/
def execSd8 (ra rb : RegNo) (s10 : BitVec 10) (s : State) : Result :=
  storeFrom ra ⟨eaImm s rb s10 0, .byte, [.write]⟩ s

/-- SD16 (R221). -/
def execSd16 (ra rb : RegNo) (s10 : BitVec 10) (s : State) : Result :=
  storeFrom ra ⟨eaImm s rb s10 1, .half, [.write]⟩ s

/-- SD32 (R222). -/
def execSd32 (ra rb : RegNo) (s10 : BitVec 10) (s : State) : Result :=
  storeFrom ra ⟨eaImm s rb s10 2, .word, [.write]⟩ s

end Sys2Proof.Machine
end

