-- ==== Sys2Proof/Machine/Misc.lean ====
section
/-! DEFINITION. The miscellaneous instructions (48_misc.md). -/

namespace Sys2Proof.Machine

/-- MVZ (R231): no register is written when the condition fails. -/
def execMvz (ra rb rc : RegNo) (s : State) : Result :=
  .next (if s.reg rb = 0#32 then s.writeReg ra (s.reg rc) else s).advance

/-- MVNZ (R232). -/
def execMvnz (ra rb rc : RegNo) (s : State) : Result :=
  .next (if s.reg rb ≠ 0#32 then s.writeReg ra (s.reg rc) else s).advance

/-- The loop of R233: from bit `i - 1` down, how many bits in a row equal `sign`. -/
def countEqualBits (v : Word) (sign : Bool) : Nat → Nat
  | 0 => 0
  | i + 1 => if v.getLsbD i = sign then countEqualBits v sign i + 1 else 0

/-- The number of bits from bit 30 down that equal bit 31: 0..31 (R233, C8). -/
def signBits (v : Word) : Nat := countEqualBits v v.msb 31

/-- CSB (R233). -/
def execCsb (ra rb : RegNo) (s : State) : Result :=
  writeAndAdvance ra (BitVec.ofNat 32 (signBits (s.reg rb))) s

/-- The four bytes in reverse order (R234). -/
def byteReverse (v : Word) : Word :=
  v.extractLsb' 0 8 ++ v.extractLsb' 8 8 ++ v.extractLsb' 16 8 ++ v.extractLsb' 24 8

/-- BREV (R234). -/
def execBrev (ra rb : RegNo) (s : State) : Result :=
  writeAndAdvance ra (byteReverse (s.reg rb)) s

/-- SWAP (R235): the read and the write are one event, both checked first (D28). -/
def execSwap (ra rb : RegNo) (s10 : BitVec 10) (s : State) : Result :=
  swapWith ra ⟨eaImm s rb s10 2, .word, [.read, .write]⟩ s

end Sys2Proof.Machine
end

