-- ==== Sys2Proof/Machine/Shift.lean ====
section
/-! DEFINITION. The shifts (46_shift.md); the amount is 0..31 (R190). -/

namespace Sys2Proof.Machine

/-- SLL (R191). -/
def execSll (ra rb rc : RegNo) (s : State) : Result :=
  writeAndAdvance ra (s.reg rb <<< shiftAmount (s.reg rc)) s

/-- SLR (R192). -/
def execSlr (ra rb rc : RegNo) (s : State) : Result :=
  writeAndAdvance ra (s.reg rb >>> shiftAmount (s.reg rc)) s

/-- SAR (R193). -/
def execSar (ra rb rc : RegNo) (s : State) : Result :=
  writeAndAdvance ra ((s.reg rb).sshiftRight (shiftAmount (s.reg rc))) s

/-- SLLI (R194). -/
def execSlli (ra rb : RegNo) (u5 : BitVec 5) (s : State) : Result :=
  writeAndAdvance ra (s.reg rb <<< u5.toNat) s

/-- SLRI (R195). -/
def execSlri (ra rb : RegNo) (u5 : BitVec 5) (s : State) : Result :=
  writeAndAdvance ra (s.reg rb >>> u5.toNat) s

/-- SARI (R196). -/
def execSari (ra rb : RegNo) (u5 : BitVec 5) (s : State) : Result :=
  writeAndAdvance ra ((s.reg rb).sshiftRight u5.toNat) s

end Sys2Proof.Machine
end

