-- ==== Sys2Proof/Machine/System.lean ====
section
/-! DEFINITION. The system control instructions (49_system.md). -/

namespace Sys2Proof.Machine

/-- CLD (R241): the module register read, sent to the module and answered by the platform (D19). -/
def execCld (ra : RegNo) (id : BitVec 3) (s10 : BitVec 10) (s : State) : Result :=
  if s10.msb then .refused .moduleRegisterNumber
  else
    let num := s10.setWidth 9
    match moduleRead s.cfg id num s.sr.sm with
    | none => .refused .moduleAccessUnknown
    | some .illins => takeException .illins s.pc s
    | some (.holds v) => writeAndAdvance ra v (s.send (.read id num))
    | some .varies =>
      writeAndAdvance ra (Config.freeWord s.freeNext) ((s.send (.read id num)).withFreeNext (s.freeNext + 1))

/-- CST (R242): `x[Ra]` sent to the module register (D19). -/
def execCst (ra : RegNo) (id : BitVec 3) (s10 : BitVec 10) (s : State) : Result :=
  if s10.msb then .refused .moduleRegisterNumber
  else
    let num := s10.setWidth 9
    match moduleWrite s.cfg id num (s.reg ra) s.sr.sm with
    | none => .refused .moduleAccessUnknown
    | some .illins => takeException .illins s.pc s
    | some .accepted => .next (s.send (.write id num (s.reg ra))).advance

/-- RCR (R243): privileged; an index that names no register is `refuse` (D18). -/
def execRcr (ra : RegNo) (cr : BitVec 5) (s : State) : Result :=
  privileged s <|
    match controlRegOf cr with
    | none => .refused .controlRegisterIndex
    | some c => writeAndAdvance ra (s.control c) s

/-- WCR (R244): privileged; SR keeps SM and its reserved bits; in force for the next instruction (D30). -/
def execWcr (ra : RegNo) (cr : BitVec 5) (s : State) : Result :=
  privileged s <|
    match controlRegOf cr with
    | none => .refused .controlRegisterIndex
    | some c => .next (s.writeControl c (s.reg ra)).advance

/-- TRAP (R245): the immediate to Ra, then the trap exception with saved PC = pc + 4. Not privileged. -/
def execTrap (ra : RegNo) (s10 : BitVec 10) (s : State) : Result :=
  takeException .trap (following s) (s.writeReg ra (sext s10))

/-- SBRK (R246): a debug break with DPC = pc + 4 if SR.DE = 1, else an illegal instruction with EPC = pc. -/
def execSbrk (s : State) : Result :=
  if s.sr.de then takeException .sbrk (following s) s else takeException .illins s.pc s

/-- RTE (R247): privileged. -/
def execRte (s : State) : Result :=
  privileged s (.next (returnFromException s))

/-- SLEEP (R248): privileged; the CPU waits from the next instruction on, or in pause mode goes on (D21). -/
def execSleep (s : State) : Result :=
  privileged s <|
    match s.cfg.sleepMode with
    | .sleep => .next (s.advance.withPower .sleep)
    | .standby => .next (s.advance.withPower .standby)
    | .pause => if s.cfg.pauseSupported then .next s.advance else .refused .pauseUnsupported

/-- ITLB (R249): privileged; CMD and the virtual address Rb sent to the ITLB. -/
def execItlb (cmd : BitVec 4) (rb : RegNo) (s : State) : Result :=
  privileged s (commandUnit .itlb cmd (s.reg rb) s)

/-- DTLB (R250): privileged. -/
def execDtlb (cmd : BitVec 4) (rb : RegNo) (s : State) : Result :=
  privileged s (commandUnit .dtlb cmd (s.reg rb) s)

/-- ICACHE (R251): the platform says which commands are privileged. -/
def execIcache (cmd : BitVec 4) (rb : RegNo) (s10 : BitVec 10) (s : State) : Result :=
  commandUnit .icache cmd (eaImm s rb s10 2) s

/-- DCACHE (R252). -/
def execDcache (cmd : BitVec 4) (rb : RegNo) (s10 : BitVec 10) (s : State) : Result :=
  commandUnit .dcache cmd (eaImm s rb s10 2) s

end Sys2Proof.Machine
end

