-- ==== Sys2Proof/Syntax.lean ====
section
/-! DEFINITION. The instructions of Arca: one constructor per row of the opcode table (30_encoding.md R111), operands in
the order of the page's `Syntax:` line (R118), immediates as the raw field (R94). -/

namespace Sys2Proof

/-- The 79 instructions. Register operands are register numbers (R93), `s5`, `s10`, `s16`, `s21` are fields read as signed
and `u5`, `u10`, `u21` fields read as unsigned (R94, R97), `id`, `cmd` and `cr` are those of R98. -/
inductive Instr
  -- immediate load (40_immediate_load.md)
  | lhi (ra : RegNo) (u21 : BitVec 21)
  -- jumps (41_jump.md)
  | j (ra : RegNo) (s21 : BitVec 21)
  | ja (ra rb : RegNo) (u10 : BitVec 10)
  -- register-register branches (42_branch.md): the left comparand `rb` is the first assembler operand
  | beq (rb ra : RegNo) (s10 : BitVec 10)
  | bne (rb ra : RegNo) (s10 : BitVec 10)
  | blt (rb ra : RegNo) (s10 : BitVec 10)
  | bge (rb ra : RegNo) (s10 : BitVec 10)
  | bltu (rb ra : RegNo) (s10 : BitVec 10)
  | bgeu (rb ra : RegNo) (s10 : BitVec 10)
  -- register-immediate branches (42_branch.md): S5 or U5 in bits 25..21 (R96)
  | beqi (rb : RegNo) (s5 : BitVec 5) (s10 : BitVec 10)
  | bnei (rb : RegNo) (s5 : BitVec 5) (s10 : BitVec 10)
  | bequi (rb : RegNo) (u5 : BitVec 5) (s10 : BitVec 10)
  | bneui (rb : RegNo) (u5 : BitVec 5) (s10 : BitVec 10)
  | blti (rb : RegNo) (s5 : BitVec 5) (s10 : BitVec 10)
  | bgei (rb : RegNo) (s5 : BitVec 5) (s10 : BitVec 10)
  | bltui (rb : RegNo) (u5 : BitVec 5) (s10 : BitVec 10)
  | bgeui (rb : RegNo) (u5 : BitVec 5) (s10 : BitVec 10)
  -- arithmetic (43_arithmetic.md); MUL has an encoding and no operation (R165)
  | add (ra rb rc : RegNo)
  | addi (ra rb : RegNo) (s10 : BitVec 10)
  | sub (ra rb rc : RegNo)
  | mulu (rh ra rb rc : RegNo)
  | mul (rh ra rb rc : RegNo)
  -- comparison (44_compare.md)
  | seq (ra rb rc : RegNo)
  | sne (ra rb rc : RegNo)
  | slt (ra rb rc : RegNo)
  | sge (ra rb rc : RegNo)
  | sltu (ra rb rc : RegNo)
  | sgeu (ra rb rc : RegNo)
  -- bitwise (45_bitwise.md)
  | and (ra rb rc : RegNo)
  | or (ra rb rc : RegNo)
  | xor (ra rb rc : RegNo)
  | andn (ra rb rc : RegNo)
  | andi (ra rb : RegNo) (s16 : BitVec 16)
  | ori (ra rb : RegNo) (s16 : BitVec 16)
  | xori (ra rb : RegNo) (s16 : BitVec 16)
  -- shifts (46_shift.md)
  | sll (ra rb rc : RegNo)
  | slr (ra rb rc : RegNo)
  | sar (ra rb rc : RegNo)
  | slli (ra rb : RegNo) (u5 : BitVec 5)
  | slri (ra rb : RegNo) (u5 : BitVec 5)
  | sari (ra rb : RegNo) (u5 : BitVec 5)
  -- loads, register + register (47_load_store.md)
  | lr8 (ra rb rc : RegNo)
  | lr8u (ra rb rc : RegNo)
  | lr16 (ra rb rc : RegNo)
  | lr16u (ra rb rc : RegNo)
  | lr32 (ra rb rc : RegNo)
  -- loads, register + scaled register
  | lx16 (ra rb rc : RegNo)
  | lx16u (ra rb rc : RegNo)
  | lx32 (ra rb rc : RegNo)
  -- loads, register + immediate
  | ld8 (ra rb : RegNo) (s10 : BitVec 10)
  | ld8u (ra rb : RegNo) (s10 : BitVec 10)
  | ld16 (ra rb : RegNo) (s10 : BitVec 10)
  | ld16u (ra rb : RegNo) (s10 : BitVec 10)
  | ld32 (ra rb : RegNo) (s10 : BitVec 10)
  -- stores, register + register; `ra` is the data
  | sr8 (ra rb rc : RegNo)
  | sr16 (ra rb rc : RegNo)
  | sr32 (ra rb rc : RegNo)
  -- stores, register + scaled register
  | sx16 (ra rb rc : RegNo)
  | sx32 (ra rb rc : RegNo)
  -- stores, register + immediate
  | sd8 (ra rb : RegNo) (s10 : BitVec 10)
  | sd16 (ra rb : RegNo) (s10 : BitVec 10)
  | sd32 (ra rb : RegNo) (s10 : BitVec 10)
  -- miscellaneous (48_misc.md)
  | mvz (ra rb rc : RegNo)
  | mvnz (ra rb rc : RegNo)
  | csb (ra rb : RegNo)
  | brev (ra rb : RegNo)
  | swap (ra rb : RegNo) (s10 : BitVec 10)
  -- system control (49_system.md)
  | cld (ra : RegNo) (id : BitVec 3) (s10 : BitVec 10)
  | cst (ra : RegNo) (id : BitVec 3) (s10 : BitVec 10)
  | rcr (ra : RegNo) (cr : BitVec 5)
  | wcr (ra : RegNo) (cr : BitVec 5)
  | trap (ra : RegNo) (s10 : BitVec 10)
  | sbrk
  | rte
  | sleep
  | itlb (cmd : BitVec 4) (rb : RegNo)
  | dtlb (cmd : BitVec 4) (rb : RegNo)
  | icache (cmd : BitVec 4) (rb : RegNo) (s10 : BitVec 10)
  | dcache (cmd : BitVec 4) (rb : RegNo) (s10 : BitVec 10)
deriving DecidableEq, Repr

end Sys2Proof
end

