-- ==== Sys2Proof/Machine/Dispatch.lean ====
section
/-! DEFINITION. One arm per instruction, each a direct call of its meaning. -/

namespace Sys2Proof.Machine

def exec (i : Instr) (s : State) : Host.Outcome State Fault Refusal :=
  match i with
  -- immediate load (40_immediate_load.md)
  | .lhi ra u21 => Sys2Proof.Machine.execLhi ra u21 s
  -- jumps (41_jump.md)
  | .j ra s21 => Sys2Proof.Machine.execJ ra s21 s
  | .ja ra rb u10 => Sys2Proof.Machine.execJa ra rb u10 s
  -- register-register branches (42_branch.md): the left comparand `rb` is the first assembler operand
  | .beq rb ra s10 => Sys2Proof.Machine.execBeq rb ra s10 s
  | .bne rb ra s10 => Sys2Proof.Machine.execBne rb ra s10 s
  | .blt rb ra s10 => Sys2Proof.Machine.execBlt rb ra s10 s
  | .bge rb ra s10 => Sys2Proof.Machine.execBge rb ra s10 s
  | .bltu rb ra s10 => Sys2Proof.Machine.execBltu rb ra s10 s
  | .bgeu rb ra s10 => Sys2Proof.Machine.execBgeu rb ra s10 s
  -- register-immediate branches (42_branch.md): S5 or U5 in bits 25..21 (R96)
  | .beqi rb s5 s10 => Sys2Proof.Machine.execBeqi rb s5 s10 s
  | .bnei rb s5 s10 => Sys2Proof.Machine.execBnei rb s5 s10 s
  | .bequi rb u5 s10 => Sys2Proof.Machine.execBequi rb u5 s10 s
  | .bneui rb u5 s10 => Sys2Proof.Machine.execBneui rb u5 s10 s
  | .blti rb s5 s10 => Sys2Proof.Machine.execBlti rb s5 s10 s
  | .bgei rb s5 s10 => Sys2Proof.Machine.execBgei rb s5 s10 s
  | .bltui rb u5 s10 => Sys2Proof.Machine.execBltui rb u5 s10 s
  | .bgeui rb u5 s10 => Sys2Proof.Machine.execBgeui rb u5 s10 s
  -- arithmetic (43_arithmetic.md); MUL has an encoding and no operation (R165)
  | .add ra rb rc => Sys2Proof.Machine.execAdd ra rb rc s
  | .addi ra rb s10 => Sys2Proof.Machine.execAddi ra rb s10 s
  | .sub ra rb rc => Sys2Proof.Machine.execSub ra rb rc s
  | .mulu rh ra rb rc => Sys2Proof.Machine.execMulu rh ra rb rc s
  | .mul rh ra rb rc => Sys2Proof.Machine.execMul rh ra rb rc s
  -- comparison (44_compare.md)
  | .seq ra rb rc => Sys2Proof.Machine.execSeq ra rb rc s
  | .sne ra rb rc => Sys2Proof.Machine.execSne ra rb rc s
  | .slt ra rb rc => Sys2Proof.Machine.execSlt ra rb rc s
  | .sge ra rb rc => Sys2Proof.Machine.execSge ra rb rc s
  | .sltu ra rb rc => Sys2Proof.Machine.execSltu ra rb rc s
  | .sgeu ra rb rc => Sys2Proof.Machine.execSgeu ra rb rc s
  -- bitwise (45_bitwise.md)
  | .and ra rb rc => Sys2Proof.Machine.execAnd ra rb rc s
  | .or ra rb rc => Sys2Proof.Machine.execOr ra rb rc s
  | .xor ra rb rc => Sys2Proof.Machine.execXor ra rb rc s
  | .andn ra rb rc => Sys2Proof.Machine.execAndn ra rb rc s
  | .andi ra rb s16 => Sys2Proof.Machine.execAndi ra rb s16 s
  | .ori ra rb s16 => Sys2Proof.Machine.execOri ra rb s16 s
  | .xori ra rb s16 => Sys2Proof.Machine.execXori ra rb s16 s
  -- shifts (46_shift.md)
  | .sll ra rb rc => Sys2Proof.Machine.execSll ra rb rc s
  | .slr ra rb rc => Sys2Proof.Machine.execSlr ra rb rc s
  | .sar ra rb rc => Sys2Proof.Machine.execSar ra rb rc s
  | .slli ra rb u5 => Sys2Proof.Machine.execSlli ra rb u5 s
  | .slri ra rb u5 => Sys2Proof.Machine.execSlri ra rb u5 s
  | .sari ra rb u5 => Sys2Proof.Machine.execSari ra rb u5 s
  -- loads, register + register (47_load_store.md)
  | .lr8 ra rb rc => Sys2Proof.Machine.execLr8 ra rb rc s
  | .lr8u ra rb rc => Sys2Proof.Machine.execLr8u ra rb rc s
  | .lr16 ra rb rc => Sys2Proof.Machine.execLr16 ra rb rc s
  | .lr16u ra rb rc => Sys2Proof.Machine.execLr16u ra rb rc s
  | .lr32 ra rb rc => Sys2Proof.Machine.execLr32 ra rb rc s
  -- loads, register + scaled register
  | .lx16 ra rb rc => Sys2Proof.Machine.execLx16 ra rb rc s
  | .lx16u ra rb rc => Sys2Proof.Machine.execLx16u ra rb rc s
  | .lx32 ra rb rc => Sys2Proof.Machine.execLx32 ra rb rc s
  -- loads, register + immediate
  | .ld8 ra rb s10 => Sys2Proof.Machine.execLd8 ra rb s10 s
  | .ld8u ra rb s10 => Sys2Proof.Machine.execLd8u ra rb s10 s
  | .ld16 ra rb s10 => Sys2Proof.Machine.execLd16 ra rb s10 s
  | .ld16u ra rb s10 => Sys2Proof.Machine.execLd16u ra rb s10 s
  | .ld32 ra rb s10 => Sys2Proof.Machine.execLd32 ra rb s10 s
  -- stores, register + register; `ra` is the data
  | .sr8 ra rb rc => Sys2Proof.Machine.execSr8 ra rb rc s
  | .sr16 ra rb rc => Sys2Proof.Machine.execSr16 ra rb rc s
  | .sr32 ra rb rc => Sys2Proof.Machine.execSr32 ra rb rc s
  -- stores, register + scaled register
  | .sx16 ra rb rc => Sys2Proof.Machine.execSx16 ra rb rc s
  | .sx32 ra rb rc => Sys2Proof.Machine.execSx32 ra rb rc s
  -- stores, register + immediate
  | .sd8 ra rb s10 => Sys2Proof.Machine.execSd8 ra rb s10 s
  | .sd16 ra rb s10 => Sys2Proof.Machine.execSd16 ra rb s10 s
  | .sd32 ra rb s10 => Sys2Proof.Machine.execSd32 ra rb s10 s
  -- miscellaneous (48_misc.md)
  | .mvz ra rb rc => Sys2Proof.Machine.execMvz ra rb rc s
  | .mvnz ra rb rc => Sys2Proof.Machine.execMvnz ra rb rc s
  | .csb ra rb => Sys2Proof.Machine.execCsb ra rb s
  | .brev ra rb => Sys2Proof.Machine.execBrev ra rb s
  | .swap ra rb s10 => Sys2Proof.Machine.execSwap ra rb s10 s
  -- system control (49_system.md)
  | .cld ra id s10 => Sys2Proof.Machine.execCld ra id s10 s
  | .cst ra id s10 => Sys2Proof.Machine.execCst ra id s10 s
  | .rcr ra cr => Sys2Proof.Machine.execRcr ra cr s
  | .wcr ra cr => Sys2Proof.Machine.execWcr ra cr s
  | .trap ra s10 => Sys2Proof.Machine.execTrap ra s10 s
  | .sbrk => Sys2Proof.Machine.execSbrk s
  | .rte => Sys2Proof.Machine.execRte s
  | .sleep => Sys2Proof.Machine.execSleep s
  | .itlb cmd rb => Sys2Proof.Machine.execItlb cmd rb s
  | .dtlb cmd rb => Sys2Proof.Machine.execDtlb cmd rb s
  | .icache cmd rb s10 => Sys2Proof.Machine.execIcache cmd rb s10 s
  | .dcache cmd rb s10 => Sys2Proof.Machine.execDcache cmd rb s10 s

end Sys2Proof.Machine
end

