-- ==== Sys2Proof/Machine/Events.lean ====
section
/-! DEFINITION. The pure test of 60_exceptions.md R295 steps 5 to 8 (which exception the instruction at `pc` raises of its
own, decided without executing it) and the asynchronous requests of step 9. -/

namespace Sys2Proof.Machine

/-- The instructions that are privileged whatever their operands (60_exceptions.md R303). -/
def alwaysPrivileged : Instr → Bool
  | .rcr _ _ | .wcr _ _ | .rte | .sleep | .itlb _ _ | .dtlb _ _ => true
  | .lhi _ _ | .j _ _ | .ja _ _ _ | .beq _ _ _ | .bne _ _ _ | .blt _ _ _ | .bge _ _ _ | .bltu _ _ _
  | .bgeu _ _ _ | .beqi _ _ _ | .bnei _ _ _ | .bequi _ _ _ | .bneui _ _ _ | .blti _ _ _ | .bgei _ _ _
  | .bltui _ _ _ | .bgeui _ _ _ | .add _ _ _ | .addi _ _ _ | .sub _ _ _ | .mulu _ _ _ _ | .mul _ _ _ _
  | .seq _ _ _ | .sne _ _ _ | .slt _ _ _ | .sge _ _ _ | .sltu _ _ _ | .sgeu _ _ _ | .and _ _ _ | .or _ _ _
  | .xor _ _ _ | .andn _ _ _ | .andi _ _ _ | .ori _ _ _ | .xori _ _ _ | .sll _ _ _ | .slr _ _ _ | .sar _ _ _
  | .slli _ _ _ | .slri _ _ _ | .sari _ _ _ | .lr8 _ _ _ | .lr8u _ _ _ | .lr16 _ _ _ | .lr16u _ _ _
  | .lr32 _ _ _ | .lx16 _ _ _ | .lx16u _ _ _ | .lx32 _ _ _ | .ld8 _ _ _ | .ld8u _ _ _ | .ld16 _ _ _
  | .ld16u _ _ _ | .ld32 _ _ _ | .sr8 _ _ _ | .sr16 _ _ _ | .sr32 _ _ _ | .sx16 _ _ _ | .sx32 _ _ _
  | .sd8 _ _ _ | .sd16 _ _ _ | .sd32 _ _ _ | .mvz _ _ _ | .mvnz _ _ _ | .csb _ _ | .brev _ _ | .swap _ _ _
  | .cld _ _ _ | .cst _ _ _ | .trap _ _ | .sbrk | .icache _ _ _ | .dcache _ _ _ => false

/-- The data access the instruction makes (47_load_store.md R200, 48_misc.md R235). -/
def dataAccess (i : Instr) (s : State) : Option DataAccess :=
  match i with
  | .lr8 _ rb rc => some ⟨eaReg s rb rc, .byte, [.read]⟩
  | .lr8u _ rb rc => some ⟨eaReg s rb rc, .byte, [.read]⟩
  | .lr16 _ rb rc => some ⟨eaReg s rb rc, .half, [.read]⟩
  | .lr16u _ rb rc => some ⟨eaReg s rb rc, .half, [.read]⟩
  | .lr32 _ rb rc => some ⟨eaReg s rb rc, .word, [.read]⟩
  | .lx16 _ rb rc => some ⟨eaScaled s rb rc 1, .half, [.read]⟩
  | .lx16u _ rb rc => some ⟨eaScaled s rb rc 1, .half, [.read]⟩
  | .lx32 _ rb rc => some ⟨eaScaled s rb rc 2, .word, [.read]⟩
  | .ld8 _ rb s10 => some ⟨eaImm s rb s10 0, .byte, [.read]⟩
  | .ld8u _ rb s10 => some ⟨eaImm s rb s10 0, .byte, [.read]⟩
  | .ld16 _ rb s10 => some ⟨eaImm s rb s10 1, .half, [.read]⟩
  | .ld16u _ rb s10 => some ⟨eaImm s rb s10 1, .half, [.read]⟩
  | .ld32 _ rb s10 => some ⟨eaImm s rb s10 2, .word, [.read]⟩
  | .sr8 _ rb rc => some ⟨eaReg s rb rc, .byte, [.write]⟩
  | .sr16 _ rb rc => some ⟨eaReg s rb rc, .half, [.write]⟩
  | .sr32 _ rb rc => some ⟨eaReg s rb rc, .word, [.write]⟩
  | .sx16 _ rb rc => some ⟨eaScaled s rb rc 1, .half, [.write]⟩
  | .sx32 _ rb rc => some ⟨eaScaled s rb rc 2, .word, [.write]⟩
  | .sd8 _ rb s10 => some ⟨eaImm s rb s10 0, .byte, [.write]⟩
  | .sd16 _ rb s10 => some ⟨eaImm s rb s10 1, .half, [.write]⟩
  | .sd32 _ rb s10 => some ⟨eaImm s rb s10 2, .word, [.write]⟩
  | .swap _ rb s10 => some ⟨eaImm s rb s10 2, .word, [.read, .write]⟩
  | .lhi _ _ | .j _ _ | .ja _ _ _ | .beq _ _ _ | .bne _ _ _ | .blt _ _ _ | .bge _ _ _ | .bltu _ _ _
  | .bgeu _ _ _ | .beqi _ _ _ | .bnei _ _ _ | .bequi _ _ _ | .bneui _ _ _ | .blti _ _ _ | .bgei _ _ _
  | .bltui _ _ _ | .bgeui _ _ _ | .add _ _ _ | .addi _ _ _ | .sub _ _ _ | .mulu _ _ _ _ | .mul _ _ _ _
  | .seq _ _ _ | .sne _ _ _ | .slt _ _ _ | .sge _ _ _ | .sltu _ _ _ | .sgeu _ _ _ | .and _ _ _ | .or _ _ _
  | .xor _ _ _ | .andn _ _ _ | .andi _ _ _ | .ori _ _ _ | .xori _ _ _ | .sll _ _ _ | .slr _ _ _ | .sar _ _ _
  | .slli _ _ _ | .slri _ _ _ | .sari _ _ _ | .mvz _ _ _ | .mvnz _ _ _ | .csb _ _ | .brev _ _ | .cld _ _ _
  | .cst _ _ _ | .rcr _ _ | .wcr _ _ | .trap _ _ | .sbrk | .rte | .sleep | .itlb _ _ | .dtlb _ _
  | .icache _ _ _ | .dcache _ _ _ => none

/-- The platform answers ILLINS to the module access or the unit command (49_system.md R241, R242, R251, R252). -/
def platformIllegal (i : Instr) (s : State) : Bool :=
  match i with
  | .cld _ id s10 => !s10.msb && moduleRead s.cfg id (s10.setWidth 9) s.sr.sm = some .illins
  | .cst ra id s10 => !s10.msb && moduleWrite s.cfg id (s10.setWidth 9) (s.reg ra) s.sr.sm = some .illins
  | .itlb cmd rb => unitOp s.cfg .itlb cmd (s.reg rb) s.sr.sm = some .illins
  | .dtlb cmd rb => unitOp s.cfg .dtlb cmd (s.reg rb) s.sr.sm = some .illins
  | .icache cmd rb s10 => unitOp s.cfg .icache cmd (eaImm s rb s10 2) s.sr.sm = some .illins
  | .dcache cmd rb s10 => unitOp s.cfg .dcache cmd (eaImm s rb s10 2) s.sr.sm = some .illins
  | .lhi _ _ | .j _ _ | .ja _ _ _ | .beq _ _ _ | .bne _ _ _ | .blt _ _ _ | .bge _ _ _ | .bltu _ _ _
  | .bgeu _ _ _ | .beqi _ _ _ | .bnei _ _ _ | .bequi _ _ _ | .bneui _ _ _ | .blti _ _ _ | .bgei _ _ _
  | .bltui _ _ _ | .bgeui _ _ _ | .add _ _ _ | .addi _ _ _ | .sub _ _ _ | .mulu _ _ _ _ | .mul _ _ _ _
  | .seq _ _ _ | .sne _ _ _ | .slt _ _ _ | .sge _ _ _ | .sltu _ _ _ | .sgeu _ _ _ | .and _ _ _ | .or _ _ _
  | .xor _ _ _ | .andn _ _ _ | .andi _ _ _ | .ori _ _ _ | .xori _ _ _ | .sll _ _ _ | .slr _ _ _ | .sar _ _ _
  | .slli _ _ _ | .slri _ _ _ | .sari _ _ _ | .lr8 _ _ _ | .lr8u _ _ _ | .lr16 _ _ _ | .lr16u _ _ _
  | .lr32 _ _ _ | .lx16 _ _ _ | .lx16u _ _ _ | .lx32 _ _ _ | .ld8 _ _ _ | .ld8u _ _ _ | .ld16 _ _ _
  | .ld16u _ _ _ | .ld32 _ _ _ | .sr8 _ _ _ | .sr16 _ _ _ | .sr32 _ _ _ | .sx16 _ _ _ | .sx32 _ _ _
  | .sd8 _ _ _ | .sd16 _ _ _ | .sd32 _ _ _ | .mvz _ _ _ | .mvnz _ _ _ | .csb _ _ | .brev _ _ | .swap _ _ _
  | .rcr _ _ | .wcr _ _ | .trap _ _ | .sbrk | .rte | .sleep => false

/-- The exception the decoded instruction raises of its own (R295 steps 5 to 7). -/
def ownException (i : Instr) (s : State) : Option Exception :=
  if alwaysPrivileged i && !s.sr.sm then some .illins
  else if i = .sbrk then some (if s.sr.de then .sbrk else .illins)
  else if (match i with | .trap _ _ => true | _ => false) then some .trap
  else if platformIllegal i s then some .illins
  else
    match dataAccess i s with
    | none => none
    | some d => if checkAccess s d = .dfault then some .dfault else none

/-- A data breakpoint match that is taken (R295 step 8): the instruction accesses data, and SR.DE = 1. The word is the DPC
that the platform says (R292, D16). -/
def dataBreakTaken (i : Instr) (s : State) (inp : StepInput) : Option Word :=
  if s.sr.de && (dataAccess i s).isSome then inp.dataBreak else none

/-- The asynchronous request taken before an instruction that raises nothing of its own (R295 step 9): the debug interrupt
(priority 6) before the interrupt (priority 8). -/
def asyncException (s : State) (inp : StepInput) : Option Exception :=
  if inp.debugInterrupt && s.sr.de then some .ibrk
  else if inp.irq && s.sr.ie then some .int
  else none

end Sys2Proof.Machine
end

