-- ==== Sys2Proof/Decode.lean ====
section
/-! DEFINITION. Decoding (30_encoding.md R117) and encoding (R99, R111) of the 32-bit instruction word, and the word's
bytes in memory (20_memory.md R61, R64). -/

namespace Sys2Proof

/-! ### The six slots of the instruction word (R91) -/

/-- OP1, bits 31..26 (R92). -/
def op1Of (w : Word) : BitVec 6 := w.extractLsb' 26 6

/-- OP2, bits 15..10 (R92). -/
def op2Of (w : Word) : BitVec 6 := w.extractLsb' 10 6

/-- Bits 25..21 (R93). -/
def slotA (w : Word) : BitVec 5 := w.extractLsb' 21 5

/-- Bits 20..16 (R93). -/
def slotB (w : Word) : BitVec 5 := w.extractLsb' 16 5

/-- Bits 9..5 (R93). -/
def slotH (w : Word) : BitVec 5 := w.extractLsb' 5 5

/-- Bits 4..0 (R93). -/
def slotL (w : Word) : BitVec 5 := w.extractLsb' 0 5

/-- I10, bits 9..0 (R97). -/
def imm10 (w : Word) : BitVec 10 := w.extractLsb' 0 10

/-- I16, bits 15..0 (R97). -/
def imm16 (w : Word) : BitVec 16 := w.extractLsb' 0 16

/-- I21, bits 20..0 (R97). -/
def imm21 (w : Word) : BitVec 21 := w.extractLsb' 0 21

/-- CMD, bits 24..21 (R99, C17). -/
def cmdOf (w : Word) : BitVec 4 := w.extractLsb' 21 4

/-- ID, bits 18..16 (R99, C17). -/
def idOf (w : Word) : BitVec 3 := w.extractLsb' 16 3

/-! ### Decoding -/

/-- Why a word is no instruction. -/
inductive DecodeError
  /-- OP1, or OP1 and OP2, is assigned to no instruction (R112): executing the word raises ILLINS. -/
  | reserved
  /-- A field the page prints as `0` is not zero (R114): the spec gives the word no meaning. -/
  | mustBeZero
  /-- Not four bytes (R90): no fetch gives this. -/
  | wrongLength
deriving DecidableEq, Repr

/-- The instruction if the printed-zero bits of its word are zero, else `mustBeZero` (R114, R117 step 5). -/
def requireZero (zero : Bool) (i : Instr) : Except DecodeError Instr :=
  if zero then .ok i else .error .mustBeZero

/-- OP1 = 000000 (R101). -/
def decodeImmediate (w : Word) : Except DecodeError Instr :=
  match op2Of w with
  | 0b000000#6 => .ok (.addi (slotA w) (slotB w) (imm10 w))
  | 0b000001#6 => requireZero (w.extractLsb' 25 1 = 0#1) (.dcache (cmdOf w) (slotB w) (imm10 w))
  | 0b000010#6 => .ok (.ja (slotA w) (slotB w) (imm10 w))
  | 0b000100#6 => requireZero (slotH w = 0#5) (.slli (slotA w) (slotB w) (slotL w))
  | 0b000101#6 => requireZero (w.extractLsb' 25 1 = 0#1) (.icache (cmdOf w) (slotB w) (imm10 w))
  | 0b001000#6 => requireZero (slotH w = 0#5) (.slri (slotA w) (slotB w) (slotL w))
  | 0b001001#6 => requireZero (w.extractLsb' 25 1 = 0#1) (.dtlb (cmdOf w) (slotB w))
  | 0b001100#6 => requireZero (slotH w = 0#5) (.sari (slotA w) (slotB w) (slotL w))
  | 0b001101#6 => requireZero (w.extractLsb' 25 1 = 0#1) (.itlb (cmdOf w) (slotB w))
  | 0b010100#6 => .ok (.csb (slotA w) (slotB w))
  | 0b011000#6 => .ok (.brev (slotA w) (slotB w))
  | _ => .error .reserved

/-- OP1 = 000010 (R102). -/
def decodeRegister (w : Word) : Except DecodeError Instr :=
  match op2Of w with
  | 0b000000#6 => .ok (.add (slotL w) (slotB w) (slotA w))
  | 0b000001#6 => .ok (.and (slotL w) (slotB w) (slotA w))
  | 0b000010#6 => .ok (.or (slotL w) (slotB w) (slotA w))
  | 0b000011#6 => .ok (.xor (slotL w) (slotB w) (slotA w))
  | 0b000100#6 => .ok (.sll (slotL w) (slotB w) (slotA w))
  | 0b001000#6 => .ok (.slr (slotL w) (slotB w) (slotA w))
  | 0b001001#6 => .ok (.mvz (slotL w) (slotB w) (slotA w))
  | 0b001100#6 => .ok (.sar (slotL w) (slotB w) (slotA w))
  | 0b001101#6 => .ok (.mvnz (slotL w) (slotB w) (slotA w))
  | 0b010000#6 => .ok (.sge (slotL w) (slotB w) (slotA w))
  | 0b010001#6 => .ok (.mulu (slotH w) (slotL w) (slotB w) (slotA w))
  | 0b010010#6 => .ok (.sne (slotL w) (slotB w) (slotA w))
  | 0b010100#6 => .ok (.slt (slotL w) (slotB w) (slotA w))
  | 0b010110#6 => .ok (.seq (slotL w) (slotB w) (slotA w))
  | 0b011000#6 => .ok (.sgeu (slotL w) (slotB w) (slotA w))
  | 0b011100#6 => .ok (.sltu (slotL w) (slotB w) (slotA w))
  | 0b100000#6 => .ok (.sub (slotL w) (slotB w) (slotA w))
  | 0b100001#6 => .ok (.andn (slotL w) (slotB w) (slotA w))
  | 0b110001#6 => .ok (.mul (slotH w) (slotL w) (slotB w) (slotA w))
  | _ => .error .reserved

/-- OP1 = 000100 (R103). -/
def decodeBranchImm (w : Word) : Except DecodeError Instr :=
  match op2Of w with
  | 0b000000#6 => .ok (.bgei (slotB w) (slotA w) (imm10 w))
  | 0b000010#6 => .ok (.bnei (slotB w) (slotA w) (imm10 w))
  | 0b000100#6 => .ok (.blti (slotB w) (slotA w) (imm10 w))
  | 0b000110#6 => .ok (.beqi (slotB w) (slotA w) (imm10 w))
  | 0b001000#6 => .ok (.bgeui (slotB w) (slotA w) (imm10 w))
  | 0b001010#6 => .ok (.bneui (slotB w) (slotA w) (imm10 w))
  | 0b001100#6 => .ok (.bltui (slotB w) (slotA w) (imm10 w))
  | 0b001110#6 => .ok (.bequi (slotB w) (slotA w) (imm10 w))
  | _ => .error .reserved

/-- OP1 = 000110 (R104). -/
def decodeBranchReg (w : Word) : Except DecodeError Instr :=
  match op2Of w with
  | 0b000000#6 => .ok (.bge (slotB w) (slotA w) (imm10 w))
  | 0b000010#6 => .ok (.bne (slotB w) (slotA w) (imm10 w))
  | 0b000100#6 => .ok (.blt (slotB w) (slotA w) (imm10 w))
  | 0b000110#6 => .ok (.beq (slotB w) (slotA w) (imm10 w))
  | 0b001000#6 => .ok (.bgeu (slotB w) (slotA w) (imm10 w))
  | 0b001100#6 => .ok (.bltu (slotB w) (slotA w) (imm10 w))
  | _ => .error .reserved

/-- OP1 = 001000 (R105). -/
def decodeMemImm (w : Word) : Except DecodeError Instr :=
  match op2Of w with
  | 0b000000#6 => .ok (.ld32 (slotA w) (slotB w) (imm10 w))
  | 0b000001#6 => .ok (.sd32 (slotA w) (slotB w) (imm10 w))
  | 0b000010#6 => .ok (.ld16 (slotA w) (slotB w) (imm10 w))
  | 0b000011#6 => .ok (.sd16 (slotA w) (slotB w) (imm10 w))
  | 0b000110#6 => .ok (.ld8 (slotA w) (slotB w) (imm10 w))
  | 0b000111#6 => .ok (.sd8 (slotA w) (slotB w) (imm10 w))
  | 0b001010#6 => .ok (.ld16u (slotA w) (slotB w) (imm10 w))
  | 0b001110#6 => .ok (.ld8u (slotA w) (slotB w) (imm10 w))
  | 0b001111#6 => .ok (.swap (slotA w) (slotB w) (imm10 w))
  | _ => .error .reserved

/-- OP1 = 001010 (R106). -/
def decodeMemReg (w : Word) : Except DecodeError Instr :=
  match op2Of w with
  | 0b000000#6 => .ok (.lr32 (slotL w) (slotB w) (slotA w))
  | 0b000001#6 => .ok (.sr32 (slotL w) (slotB w) (slotA w))
  | 0b000010#6 => .ok (.lr16 (slotL w) (slotB w) (slotA w))
  | 0b000011#6 => .ok (.sr16 (slotL w) (slotB w) (slotA w))
  | 0b000110#6 => .ok (.lr8 (slotL w) (slotB w) (slotA w))
  | 0b000111#6 => .ok (.sr8 (slotL w) (slotB w) (slotA w))
  | 0b001010#6 => .ok (.lr16u (slotL w) (slotB w) (slotA w))
  | 0b001110#6 => .ok (.lr8u (slotL w) (slotB w) (slotA w))
  | 0b010000#6 => .ok (.lx32 (slotL w) (slotB w) (slotA w))
  | 0b010001#6 => .ok (.sx32 (slotL w) (slotB w) (slotA w))
  | 0b010010#6 => .ok (.lx16 (slotL w) (slotB w) (slotA w))
  | 0b010011#6 => .ok (.sx16 (slotL w) (slotB w) (slotA w))
  | 0b011010#6 => .ok (.lx16u (slotL w) (slotB w) (slotA w))
  | _ => .error .reserved

/-- OP1 = 011001 (R107). -/
def decodeSystem (w : Word) : Except DecodeError Instr :=
  match op2Of w with
  | 0b000000#6 => .ok (.trap (slotA w) (imm10 w))
  | 0b000001#6 => .ok .rte
  | 0b000011#6 => .ok .sleep
  | 0b000100#6 => .ok (.rcr (slotA w) (slotL w))
  | 0b000101#6 => .ok (.wcr (slotA w) (slotL w))
  | 0b001000#6 => requireZero (w.extractLsb' 19 2 = 0#2) (.cld (slotA w) (idOf w) (imm10 w))
  | 0b001001#6 => requireZero (w.extractLsb' 19 2 = 0#2) (.cst (slotA w) (idOf w) (imm10 w))
  | 0b010011#6 => .ok .sbrk
  | _ => .error .reserved

/-- The decoding procedure of R117 (steps 1 to 5); "Don't care" bits are not looked at (R113). -/
def decode (w : Word) : Except DecodeError Instr :=
  match op1Of w with
  | 0b000000#6 => decodeImmediate w
  | 0b000010#6 => decodeRegister w
  | 0b000100#6 => decodeBranchImm w
  | 0b000101#6 => .ok (.j (slotA w) (imm21 w))
  | 0b000110#6 => decodeBranchReg w
  | 0b001000#6 => decodeMemImm w
  | 0b001001#6 => .ok (.lhi (slotA w) (imm21 w))
  | 0b001010#6 => decodeMemReg w
  | 0b001100#6 => .ok (.andi (slotA w) (slotB w) (imm16 w))
  | 0b010100#6 => .ok (.ori (slotA w) (slotB w) (imm16 w))
  | 0b011000#6 => .ok (.xori (slotA w) (slotB w) (imm16 w))
  | 0b011001#6 => decodeSystem w
  | _ => .error .reserved

/-! ### Encoding -/

/-- A word of six slots (Formats 1, 2, 3 of R91). -/
def wordSix (op1 : BitVec 6) (a b : BitVec 5) (op2 : BitVec 6) (h l : BitVec 5) : Word :=
  op1 ++ a ++ b ++ op2 ++ h ++ l

/-- A word with an I10 (Format 4 of R91). -/
def wordI10 (op1 : BitVec 6) (a b : BitVec 5) (op2 : BitVec 6) (i : BitVec 10) : Word :=
  op1 ++ a ++ b ++ op2 ++ i

/-- A word with an I16 (Format 5 of R91). -/
def wordI16 (op1 : BitVec 6) (a b : BitVec 5) (i : BitVec 16) : Word :=
  op1 ++ a ++ b ++ i

/-- A word with an I21 (Format 6 of R91). -/
def wordI21 (op1 : BitVec 6) (a : BitVec 5) (i : BitVec 21) : Word :=
  op1 ++ a ++ i

/-- The word of an instruction: the layouts of R99 with the codes of R101 to R108. "Don't care" bits are written 0
(R113), printed-zero bits are 0. -/
def encode : Instr → Word
  | .lhi ra u21 => wordI21 0b001001#6 ra u21
  | .j ra s21 => wordI21 0b000101#6 ra s21
  | .ja ra rb u10 => wordI10 0b000000#6 ra rb 0b000010#6 u10
  | .beq rb ra s10 => wordI10 0b000110#6 ra rb 0b000110#6 s10
  | .bne rb ra s10 => wordI10 0b000110#6 ra rb 0b000010#6 s10
  | .blt rb ra s10 => wordI10 0b000110#6 ra rb 0b000100#6 s10
  | .bge rb ra s10 => wordI10 0b000110#6 ra rb 0b000000#6 s10
  | .bltu rb ra s10 => wordI10 0b000110#6 ra rb 0b001100#6 s10
  | .bgeu rb ra s10 => wordI10 0b000110#6 ra rb 0b001000#6 s10
  | .beqi rb s5 s10 => wordI10 0b000100#6 s5 rb 0b000110#6 s10
  | .bnei rb s5 s10 => wordI10 0b000100#6 s5 rb 0b000010#6 s10
  | .bequi rb u5 s10 => wordI10 0b000100#6 u5 rb 0b001110#6 s10
  | .bneui rb u5 s10 => wordI10 0b000100#6 u5 rb 0b001010#6 s10
  | .blti rb s5 s10 => wordI10 0b000100#6 s5 rb 0b000100#6 s10
  | .bgei rb s5 s10 => wordI10 0b000100#6 s5 rb 0b000000#6 s10
  | .bltui rb u5 s10 => wordI10 0b000100#6 u5 rb 0b001100#6 s10
  | .bgeui rb u5 s10 => wordI10 0b000100#6 u5 rb 0b001000#6 s10
  | .add ra rb rc => wordSix 0b000010#6 rc rb 0b000000#6 0#5 ra
  | .addi ra rb s10 => wordI10 0b000000#6 ra rb 0b000000#6 s10
  | .sub ra rb rc => wordSix 0b000010#6 rc rb 0b100000#6 0#5 ra
  | .mulu rh ra rb rc => wordSix 0b000010#6 rc rb 0b010001#6 rh ra
  | .mul rh ra rb rc => wordSix 0b000010#6 rc rb 0b110001#6 rh ra
  | .seq ra rb rc => wordSix 0b000010#6 rc rb 0b010110#6 0#5 ra
  | .sne ra rb rc => wordSix 0b000010#6 rc rb 0b010010#6 0#5 ra
  | .slt ra rb rc => wordSix 0b000010#6 rc rb 0b010100#6 0#5 ra
  | .sge ra rb rc => wordSix 0b000010#6 rc rb 0b010000#6 0#5 ra
  | .sltu ra rb rc => wordSix 0b000010#6 rc rb 0b011100#6 0#5 ra
  | .sgeu ra rb rc => wordSix 0b000010#6 rc rb 0b011000#6 0#5 ra
  | .and ra rb rc => wordSix 0b000010#6 rc rb 0b000001#6 0#5 ra
  | .or ra rb rc => wordSix 0b000010#6 rc rb 0b000010#6 0#5 ra
  | .xor ra rb rc => wordSix 0b000010#6 rc rb 0b000011#6 0#5 ra
  | .andn ra rb rc => wordSix 0b000010#6 rc rb 0b100001#6 0#5 ra
  | .andi ra rb s16 => wordI16 0b001100#6 ra rb s16
  | .ori ra rb s16 => wordI16 0b010100#6 ra rb s16
  | .xori ra rb s16 => wordI16 0b011000#6 ra rb s16
  | .sll ra rb rc => wordSix 0b000010#6 rc rb 0b000100#6 0#5 ra
  | .slr ra rb rc => wordSix 0b000010#6 rc rb 0b001000#6 0#5 ra
  | .sar ra rb rc => wordSix 0b000010#6 rc rb 0b001100#6 0#5 ra
  | .slli ra rb u5 => wordSix 0b000000#6 ra rb 0b000100#6 0#5 u5
  | .slri ra rb u5 => wordSix 0b000000#6 ra rb 0b001000#6 0#5 u5
  | .sari ra rb u5 => wordSix 0b000000#6 ra rb 0b001100#6 0#5 u5
  | .lr8 ra rb rc => wordSix 0b001010#6 rc rb 0b000110#6 0#5 ra
  | .lr8u ra rb rc => wordSix 0b001010#6 rc rb 0b001110#6 0#5 ra
  | .lr16 ra rb rc => wordSix 0b001010#6 rc rb 0b000010#6 0#5 ra
  | .lr16u ra rb rc => wordSix 0b001010#6 rc rb 0b001010#6 0#5 ra
  | .lr32 ra rb rc => wordSix 0b001010#6 rc rb 0b000000#6 0#5 ra
  | .lx16 ra rb rc => wordSix 0b001010#6 rc rb 0b010010#6 0#5 ra
  | .lx16u ra rb rc => wordSix 0b001010#6 rc rb 0b011010#6 0#5 ra
  | .lx32 ra rb rc => wordSix 0b001010#6 rc rb 0b010000#6 0#5 ra
  | .ld8 ra rb s10 => wordI10 0b001000#6 ra rb 0b000110#6 s10
  | .ld8u ra rb s10 => wordI10 0b001000#6 ra rb 0b001110#6 s10
  | .ld16 ra rb s10 => wordI10 0b001000#6 ra rb 0b000010#6 s10
  | .ld16u ra rb s10 => wordI10 0b001000#6 ra rb 0b001010#6 s10
  | .ld32 ra rb s10 => wordI10 0b001000#6 ra rb 0b000000#6 s10
  | .sr8 ra rb rc => wordSix 0b001010#6 rc rb 0b000111#6 0#5 ra
  | .sr16 ra rb rc => wordSix 0b001010#6 rc rb 0b000011#6 0#5 ra
  | .sr32 ra rb rc => wordSix 0b001010#6 rc rb 0b000001#6 0#5 ra
  | .sx16 ra rb rc => wordSix 0b001010#6 rc rb 0b010011#6 0#5 ra
  | .sx32 ra rb rc => wordSix 0b001010#6 rc rb 0b010001#6 0#5 ra
  | .sd8 ra rb s10 => wordI10 0b001000#6 ra rb 0b000111#6 s10
  | .sd16 ra rb s10 => wordI10 0b001000#6 ra rb 0b000011#6 s10
  | .sd32 ra rb s10 => wordI10 0b001000#6 ra rb 0b000001#6 s10
  | .mvz ra rb rc => wordSix 0b000010#6 rc rb 0b001001#6 0#5 ra
  | .mvnz ra rb rc => wordSix 0b000010#6 rc rb 0b001101#6 0#5 ra
  | .csb ra rb => wordSix 0b000000#6 ra rb 0b010100#6 0#5 0#5
  | .brev ra rb => wordSix 0b000000#6 ra rb 0b011000#6 0#5 0#5
  | .swap ra rb s10 => wordI10 0b001000#6 ra rb 0b001111#6 s10
  | .cld ra id s10 => wordI10 0b011001#6 ra (0b00#2 ++ id) 0b001000#6 s10
  | .cst ra id s10 => wordI10 0b011001#6 ra (0b00#2 ++ id) 0b001001#6 s10
  | .rcr ra cr => wordSix 0b011001#6 ra 0#5 0b000100#6 0#5 cr
  | .wcr ra cr => wordSix 0b011001#6 ra 0#5 0b000101#6 0#5 cr
  | .trap ra s10 => wordI10 0b011001#6 ra 0#5 0b000000#6 s10
  | .sbrk => wordSix 0b011001#6 0#5 0#5 0b010011#6 0#5 0#5
  | .rte => wordSix 0b011001#6 0#5 0#5 0b000001#6 0#5 0#5
  | .sleep => wordSix 0b011001#6 0#5 0#5 0b000011#6 0#5 0#5
  | .itlb cmd rb => wordSix 0b000000#6 (0b0#1 ++ cmd) rb 0b001101#6 0#5 0#5
  | .dtlb cmd rb => wordSix 0b000000#6 (0b0#1 ++ cmd) rb 0b001001#6 0#5 0#5
  | .icache cmd rb s10 => wordI10 0b000000#6 (0b0#1 ++ cmd) rb 0b000101#6 s10
  | .dcache cmd rb s10 => wordI10 0b000000#6 (0b0#1 ++ cmd) rb 0b000001#6 s10

/-! ### The rows of the opcode table -/

/-- A row of R111: a word `w` is the instruction when `w &&& mask = code`. -/
structure OpcodeRow where
  code : Word
  mask : Word
deriving DecidableEq, Repr

/-- The `match` and `mask` columns of R111. -/
def Instr.row : Instr → OpcodeRow
  | .lhi _ _ => ⟨0x24000000#32, 0xfc000000#32⟩
  | .j _ _ => ⟨0x14000000#32, 0xfc000000#32⟩
  | .ja _ _ _ => ⟨0x00000800#32, 0xfc00fc00#32⟩
  | .beq _ _ _ => ⟨0x18001800#32, 0xfc00fc00#32⟩
  | .bne _ _ _ => ⟨0x18000800#32, 0xfc00fc00#32⟩
  | .blt _ _ _ => ⟨0x18001000#32, 0xfc00fc00#32⟩
  | .bge _ _ _ => ⟨0x18000000#32, 0xfc00fc00#32⟩
  | .bltu _ _ _ => ⟨0x18003000#32, 0xfc00fc00#32⟩
  | .bgeu _ _ _ => ⟨0x18002000#32, 0xfc00fc00#32⟩
  | .beqi _ _ _ => ⟨0x10001800#32, 0xfc00fc00#32⟩
  | .bnei _ _ _ => ⟨0x10000800#32, 0xfc00fc00#32⟩
  | .bequi _ _ _ => ⟨0x10003800#32, 0xfc00fc00#32⟩
  | .bneui _ _ _ => ⟨0x10002800#32, 0xfc00fc00#32⟩
  | .blti _ _ _ => ⟨0x10001000#32, 0xfc00fc00#32⟩
  | .bgei _ _ _ => ⟨0x10000000#32, 0xfc00fc00#32⟩
  | .bltui _ _ _ => ⟨0x10003000#32, 0xfc00fc00#32⟩
  | .bgeui _ _ _ => ⟨0x10002000#32, 0xfc00fc00#32⟩
  | .add _ _ _ => ⟨0x08000000#32, 0xfc00fc00#32⟩
  | .addi _ _ _ => ⟨0x00000000#32, 0xfc00fc00#32⟩
  | .sub _ _ _ => ⟨0x08008000#32, 0xfc00fc00#32⟩
  | .mulu _ _ _ _ => ⟨0x08004400#32, 0xfc00fc00#32⟩
  | .mul _ _ _ _ => ⟨0x0800c400#32, 0xfc00fc00#32⟩
  | .seq _ _ _ => ⟨0x08005800#32, 0xfc00fc00#32⟩
  | .sne _ _ _ => ⟨0x08004800#32, 0xfc00fc00#32⟩
  | .slt _ _ _ => ⟨0x08005000#32, 0xfc00fc00#32⟩
  | .sge _ _ _ => ⟨0x08004000#32, 0xfc00fc00#32⟩
  | .sltu _ _ _ => ⟨0x08007000#32, 0xfc00fc00#32⟩
  | .sgeu _ _ _ => ⟨0x08006000#32, 0xfc00fc00#32⟩
  | .and _ _ _ => ⟨0x08000400#32, 0xfc00fc00#32⟩
  | .or _ _ _ => ⟨0x08000800#32, 0xfc00fc00#32⟩
  | .xor _ _ _ => ⟨0x08000c00#32, 0xfc00fc00#32⟩
  | .andn _ _ _ => ⟨0x08008400#32, 0xfc00fc00#32⟩
  | .andi _ _ _ => ⟨0x30000000#32, 0xfc000000#32⟩
  | .ori _ _ _ => ⟨0x50000000#32, 0xfc000000#32⟩
  | .xori _ _ _ => ⟨0x60000000#32, 0xfc000000#32⟩
  | .sll _ _ _ => ⟨0x08001000#32, 0xfc00fc00#32⟩
  | .slr _ _ _ => ⟨0x08002000#32, 0xfc00fc00#32⟩
  | .sar _ _ _ => ⟨0x08003000#32, 0xfc00fc00#32⟩
  | .slli _ _ _ => ⟨0x00001000#32, 0xfc00ffe0#32⟩
  | .slri _ _ _ => ⟨0x00002000#32, 0xfc00ffe0#32⟩
  | .sari _ _ _ => ⟨0x00003000#32, 0xfc00ffe0#32⟩
  | .lr8 _ _ _ => ⟨0x28001800#32, 0xfc00fc00#32⟩
  | .lr8u _ _ _ => ⟨0x28003800#32, 0xfc00fc00#32⟩
  | .lr16 _ _ _ => ⟨0x28000800#32, 0xfc00fc00#32⟩
  | .lr16u _ _ _ => ⟨0x28002800#32, 0xfc00fc00#32⟩
  | .lr32 _ _ _ => ⟨0x28000000#32, 0xfc00fc00#32⟩
  | .lx16 _ _ _ => ⟨0x28004800#32, 0xfc00fc00#32⟩
  | .lx16u _ _ _ => ⟨0x28006800#32, 0xfc00fc00#32⟩
  | .lx32 _ _ _ => ⟨0x28004000#32, 0xfc00fc00#32⟩
  | .ld8 _ _ _ => ⟨0x20001800#32, 0xfc00fc00#32⟩
  | .ld8u _ _ _ => ⟨0x20003800#32, 0xfc00fc00#32⟩
  | .ld16 _ _ _ => ⟨0x20000800#32, 0xfc00fc00#32⟩
  | .ld16u _ _ _ => ⟨0x20002800#32, 0xfc00fc00#32⟩
  | .ld32 _ _ _ => ⟨0x20000000#32, 0xfc00fc00#32⟩
  | .sr8 _ _ _ => ⟨0x28001c00#32, 0xfc00fc00#32⟩
  | .sr16 _ _ _ => ⟨0x28000c00#32, 0xfc00fc00#32⟩
  | .sr32 _ _ _ => ⟨0x28000400#32, 0xfc00fc00#32⟩
  | .sx16 _ _ _ => ⟨0x28004c00#32, 0xfc00fc00#32⟩
  | .sx32 _ _ _ => ⟨0x28004400#32, 0xfc00fc00#32⟩
  | .sd8 _ _ _ => ⟨0x20001c00#32, 0xfc00fc00#32⟩
  | .sd16 _ _ _ => ⟨0x20000c00#32, 0xfc00fc00#32⟩
  | .sd32 _ _ _ => ⟨0x20000400#32, 0xfc00fc00#32⟩
  | .mvz _ _ _ => ⟨0x08002400#32, 0xfc00fc00#32⟩
  | .mvnz _ _ _ => ⟨0x08003400#32, 0xfc00fc00#32⟩
  | .csb _ _ => ⟨0x00005000#32, 0xfc00fc00#32⟩
  | .brev _ _ => ⟨0x00006000#32, 0xfc00fc00#32⟩
  | .swap _ _ _ => ⟨0x20003c00#32, 0xfc00fc00#32⟩
  | .cld _ _ _ => ⟨0x64002000#32, 0xfc18fc00#32⟩
  | .cst _ _ _ => ⟨0x64002400#32, 0xfc18fc00#32⟩
  | .rcr _ _ => ⟨0x64001000#32, 0xfc00fc00#32⟩
  | .wcr _ _ => ⟨0x64001400#32, 0xfc00fc00#32⟩
  | .trap _ _ => ⟨0x64000000#32, 0xfc00fc00#32⟩
  | .sbrk => ⟨0x64004c00#32, 0xfc00fc00#32⟩
  | .rte => ⟨0x64000400#32, 0xfc00fc00#32⟩
  | .sleep => ⟨0x64000c00#32, 0xfc00fc00#32⟩
  | .itlb _ _ => ⟨0x00003400#32, 0xfe00fc00#32⟩
  | .dtlb _ _ => ⟨0x00002400#32, 0xfe00fc00#32⟩
  | .icache _ _ _ => ⟨0x00001400#32, 0xfe00fc00#32⟩
  | .dcache _ _ _ => ⟨0x00000400#32, 0xfe00fc00#32⟩

/-! ### The word in memory -/

/-- The four bytes of a word from the lowest address up (R61). -/
def wordToBytes (e : Endian) (w : Word) : List Byte :=
  let b (k : Nat) : Byte := w.extractLsb' (8 * k) 8
  match e with
  | .big => [b 3, b 2, b 1, b 0]
  | .little => [b 0, b 1, b 2, b 3]

/-- The instruction in a list of bytes read from the lowest address up (R64, R90); total on any bytes. -/
def decodeBytes (e : Endian) : List Byte → Except DecodeError Instr
  | [b0, b1, b2, b3] =>
    match e with
    | .big => decode (b0 ++ b1 ++ b2 ++ b3)
    | .little => decode (b3 ++ b2 ++ b1 ++ b0)
  | _ => .error .wrongLength

/-- The instruction read from the table's `nbits` bits `w` (bit 0 least significant; every bit above `nbits` zero): laid
out as four bytes of memory and given to the decoder. -/
def decodeTableWord (nbits w : Nat) : Option Instr :=
  match decodeBytes .big (wordToBytes .big (BitVec.ofNat 32 (w % 2 ^ nbits))) with
  | .ok i => some i
  | .error _ => none

end Sys2Proof
end

