-- ==== Sys2Proof/Machine/Fetch.lean ====
section
/-! DEFINITION. Instruction fetch (20_memory.md R64, R70, R81; 70_reset_and_hazards.md R345 steps 1, 3, 4). -/

namespace Sys2Proof.Machine

/-- The low two bits of `pc` are not 00 (10_state.md R29). -/
def pcMisaligned (s : State) : Bool := isMisaligned s.pc .word

/-- A byte of the word at `pc` was written by a store of this run, and the platform does not say that fetch sees stores
(R81, R342). -/
def fetchesStoredByte (s : State) : Bool :=
  !s.cfg.fetchSeesStores && (List.range 4).any fun k => s.stored.contains ((s.physical .fetch s.pc).toNat + k)

/-- What a fetch at an aligned `pc` gives. -/
inductive Fetched
  | word (w : Word)
  | ifault
  | storedByte
deriving DecidableEq, Repr

/-- `Fetch(pc)` (R64): the platform may refuse it (IFAULT); otherwise the word in the machine's byte order. -/
def fetch (s : State) : Fetched :=
  if accessFault s.cfg s.pc 4 .fetch s.sr.sm then .ifault
  else if fetchesStoredByte s then .storedByte
  else .word (s.mem.read32 s.cfg.endian (s.physical .fetch s.pc).toNat)

end Sys2Proof.Machine
end

