-- ==== Sys2Proof/Machine/Cycle.lean ====
section
/-! DEFINITION. One step of the machine (70_reset_and_hazards.md R345), in the order of checks of 60_exceptions.md R295.
Machine/Step.lean only calls it. -/

namespace Sys2Proof.Machine

/-- The inputs of this step; with none left nothing is asserted (log 15). -/
def currentInput (s : State) : StepInput := s.inputs.headD {}

/-- This step's inputs are consumed. -/
def consumeInput (s : State) : State := s.withInputs s.inputs.tail

/-- R345 steps 6 to 8: a stop or an exception of the instruction itself, else a data break, else an asynchronous request
(the instruction at `pc` is then not executed), else the instruction's own effect. -/
def runDecoded (i : Instr) (inp : StepInput) (s : State) : Result :=
  match ownException i s with
  | some _ => exec i s
  | none =>
    match exec i s with
    | .next t =>
      match dataBreakTaken i s inp with
      | some dpc => takeException .dbrk dpc s
      | none =>
        match asyncException s inp with
        | some e => takeException e s.pc s
        | none => .next t
    | .fault f => .fault f
    | .refused r => .refused r

/-- R345 step 5: reserved words raise ILLINS (30_encoding.md R112), a printed-zero bit set is `refuse` (R114). -/
def runWord (w : Word) (inp : StepInput) (s : State) : Result :=
  match decode w with
  | .ok i => runDecoded i inp s
  | .error .reserved => takeException .illins s.pc s
  | .error .mustBeZero => .refused .mustBeZeroField
  | .error .wrongLength => .refused .mustBeZeroField

/-- R345 steps 1 to 5 for a running CPU. -/
def runAtPc (inp : StepInput) (s : State) : Result :=
  if pcMisaligned s then .fault .misalignedFetch
  else if inp.instrBreak && s.sr.de then takeException .ibrk s.pc s
  else
    match fetch s with
    | .ifault => takeException .ifault s.pc s
    | .storedByte => .fault .fetchOfStoredByte
    | .word w => runWord w inp s

/-- A CPU waiting after SLEEP (49_system.md R248): nothing executes until the interrupt request; then INT with EPC = the
instruction after SLEEP, or, with SR.IE = 0, `refuse`. -/
def waitForInterrupt (inp : StepInput) (s : State) : Result :=
  if inp.irq then
    if s.sr.ie then takeException .int s.pc (s.withPower .running) else .fault .wakeWithInterruptsMasked
  else .next s

/-- One step: a debug bootstrap, then a manual reset (60_exceptions.md R289 priorities 0 and 1), which also end a wait
(70_reset_and_hazards.md R330); else the wait goes on or the instruction at `pc` runs. -/
def cycle (s : State) : Result :=
  let inp := currentInput s
  let s := consumeInput s
  if inp.dboot then debugBootstrap s
  else if inp.manualReset then manualReset s
  else
    match s.power with
    | .running => runAtPc inp s
    | .sleep => waitForInterrupt inp s
    | .standby => waitForInterrupt inp s

/-- A word placed where `pc` fetches, in the machine's byte order, the CPU running, its four bytes counted as loaded, not stored
(70_reset_and_hazards.md R336). -/
def placeAtPc (s : State) (w : Word) : State :=
  let p := (s.physical .fetch s.pc).toNat
  ((s.withMem (s.mem.write32 s.cfg.endian p w)).withStored
    (s.stored.filter fun a => !(p ≤ a && a < p + 4))).withPower .running

end Sys2Proof.Machine
end

