-- ==== Sys2Proof/Machine/Step.lean ====
section
/-! DEFINITION. The step, and the placing of one instruction where the next step fetches it. -/

namespace Sys2Proof.Machine

/-- One step (70_reset_and_hazards.md R345). -/
def step (s : State) : Host.Outcome State Fault Refusal := cycle s

/-- The instruction whose `nbits` bits are `w` stored at `pc` (log 12). -/
def State.withFetchWord (s : State) (nbits w : Nat) : State := placeAtPc s (BitVec.ofNat 32 (w % 2 ^ nbits))

end Sys2Proof.Machine
end

