-- ==== Sys2Proof/Machine/Assembler.lean ====
section
/-! DEFINITION. The assembler's operators and macro instructions (30_encoding.md R120, R121). No part of the machine: the
step uses none of it. -/

namespace Sys2Proof.Machine

/-- `@h21` (R120): the high 21 bits, for LHI. -/
def opH21 (v : Word) : BitVec 21 := (v >>> 11).setWidth 21

/-- `@l11` (R120): the low 11 bits, for ORI, ANDI, XORI. -/
def opL11 (v : Word) : BitVec 16 := (v &&& 0x7ff#32).setWidth 16

/-- `@eh21` (R120): the high 21 bits, rounded up when bit 10 is set. -/
def opEh21 (v : Word) : BitVec 21 := ((v + (v &&& 0x400#32)) >>> 11).setWidth 21

/-- `@o11` (R120): the unscaled S10 of LD32, SD32, SWAP. -/
def opO11 (v : Word) : BitVec 10 := ((v &&& 0x7ff#32) >>> 2).setWidth 10

/-- `@ho11` (R120): the unscaled S10 of LD16, SD16, `((int)v << 21) >> 22`. -/
def opHo11 (v : Word) : BitVec 10 := ((v <<< 21).sshiftRight 22).setWidth 10

/-- `mov Ra, Rb` (R121). -/
def macroMov (ra rb : RegNo) : List Instr := [.or ra rb 0#5]

/-- `movi Ra, imm` (R121; source R0, C13). -/
def macroMovi (ra : RegNo) (imm : BitVec 16) : List Instr := [.ori ra 0#5 imm]

/-- `movhi Ra, sym` (R121). -/
def macroMovhi (ra : RegNo) (sym : Word) : List Instr := [.lhi ra (opH21 sym)]

/-- `movlo Ra, sym` (R121; source Ra, C13). -/
def macroMovlo (ra : RegNo) (sym : Word) : List Instr := [.ori ra ra (opL11 sym)]

/-- `mova Ra, sym` (R121): the two halves. -/
def macroMova (ra : RegNo) (sym : Word) : List Instr := macroMovhi ra sym ++ macroMovlo ra sym

/-- `nop` (R121). -/
def macroNop : List Instr := [.or 0#5 0#5 0#5]

end Sys2Proof.Machine
end

