-- ==== Sys2Proof/Safety.lean ====
section
/-! DEFINITION. The terms claims use: what a meaning completes with and leaves alone, the invariants of the state, and what
counts as a safe run. -/

namespace Sys2Proof.Machine

/-! ### What an outcome leaves alone -/

/-- The outcome is a next state, and that state satisfies `P`. -/
def Completes (o : Result) (P : State → Prop) : Prop := ∃ t, o = .next t ∧ P t

/-- The byte that a load at `a` reads (20_memory.md R62, R76). -/
def State.byteAt (s : State) (a : Word) : Byte := s.mem.read (s.physical .read a).toNat

/-- The halfword that a load at `a` reads. -/
def State.halfAt (s : State) (a : Word) : BitVec 16 := s.mem.read16 s.cfg.endian (s.physical .read a).toNat

/-- The word that a load at `a` reads. -/
def State.wordAt (s : State) (a : Word) : Word := s.mem.read32 s.cfg.endian (s.physical .read a).toNat

/-- Every general register reads as before. -/
def keepsRegs (s t : State) : Prop := ∀ r, t.reg r = s.reg r

/-- Register `ra` reads as `v`, or as before if it is R0 (10_state.md R23); every other register reads as before. -/
def setsReg (s : State) (ra : RegNo) (v : Word) (t : State) : Prop :=
  ∀ r, t.reg r = if r = ra ∧ ra ≠ 0#5 then v else s.reg r

/-- The five control registers are unchanged, SR in all its fields. -/
def keepsControl (s t : State) : Prop :=
  t.sr = s.sr ∧ t.esr = s.esr ∧ t.epc = s.epc ∧ t.dsr = s.dsr ∧ t.dpc = s.dpc

/-- Every byte of memory reads as before, and no byte more counts as stored to. -/
def keepsMemory (s t : State) : Prop := (∀ a, t.mem.read a = s.mem.read a) ∧ t.stored = s.stored

/-- The byte at address `a` of memory is one of the bytes that the access, made in `s`, writes (20_memory.md R63, R76). -/
def DataAccess.covers (d : DataAccess) (s : State) (a : Nat) : Prop :=
  (s.physical .write d.addr).toNat ≤ a ∧ a < (s.physical .write d.addr).toNat + d.size.bytes

/-- Every byte of memory outside the access reads as before; the bytes of the access, and no others, newly count as
stored to (20_memory.md R81). -/
def keepsMemoryOutside (s : State) (d : DataAccess) (t : State) : Prop :=
  (∀ a, ¬d.covers s a → t.mem.read a = s.mem.read a) ∧ ∀ a, a ∈ t.stored ↔ d.covers s a ∨ a ∈ s.stored

/-- Everything that is neither register, memory nor message is unchanged. -/
def keepsRest (s t : State) : Prop :=
  t.power = s.power ∧ t.inputs = s.inputs ∧ t.freeNext = s.freeNext ∧ t.cfg = s.cfg

/-- Nothing is sent to a module. -/
def sendsNothing (s t : State) : Prop := t.moduleOut = s.moduleOut

/-- Only `pc` (now `p`) changes. -/
def OnlyPc (s : State) (p : Word) (t : State) : Prop :=
  t.pc = p ∧ keepsRegs s t ∧ keepsControl s t ∧ keepsMemory s t ∧ sendsNothing s t ∧ keepsRest s t

/-- Only `pc` (now `p`) and register `ra` (now `v`; nothing if it is R0) change. -/
def OnlyRegAndPc (s : State) (ra : RegNo) (v p : Word) (t : State) : Prop :=
  t.pc = p ∧ setsReg s ra v t ∧ keepsControl s t ∧ keepsMemory s t ∧ sendsNothing s t ∧ keepsRest s t

/-- Only `pc` (now the following instruction) and register `ra` (now `v`) change. -/
def OnlyReg (s : State) (ra : RegNo) (v : Word) (t : State) : Prop := OnlyRegAndPc s ra v (s.pc + 4#32) t

/-- Only `pc` (now the following instruction) and the bytes of the access change. -/
def OnlyStore (s : State) (d : DataAccess) (t : State) : Prop :=
  t.pc = s.pc + 4#32 ∧ keepsRegs s t ∧ keepsControl s t ∧ keepsMemoryOutside s d t ∧ sendsNothing s t ∧ keepsRest s t

/-- Only `pc` (now the following instruction) and the messages sent (one more, `m`) change. -/
def OnlySends (s : State) (m : ModuleMsg) (t : State) : Prop :=
  t.pc = s.pc + 4#32 ∧ keepsRegs s t ∧ keepsControl s t ∧ keepsMemory s t ∧ t.moduleOut = m :: s.moduleOut ∧ keepsRest s t

/-- As `OnlySends`; a command that publishes also ends the record of stored bytes (20_memory.md R81). -/
def OnlyCommands (s : State) (m : ModuleMsg) (publishes : Bool) (t : State) : Prop :=
  t.pc = s.pc + 4#32 ∧ keepsRegs s t ∧ keepsControl s t ∧ (∀ a, t.mem.read a = s.mem.read a) ∧
    t.stored = (if publishes then [] else s.stored) ∧ t.moduleOut = m :: s.moduleOut ∧ keepsRest s t

/-- Only `pc` (now the following instruction) and the control registers (now as given) change. -/
def OnlyControl (s : State) (sr : StatusReg) (esr epc dsr dpc : Word) (t : State) : Prop :=
  t.pc = s.pc + 4#32 ∧ t.sr = sr ∧ t.esr = esr ∧ t.epc = epc ∧ t.dsr = dsr ∧ t.dpc = dpc ∧ keepsRegs s t ∧
    keepsMemory s t ∧ sendsNothing s t ∧ keepsRest s t

/-- The general registers an instruction may write (10_state.md R24). -/
def destinations : Instr → List RegNo
  | .mulu rh ra _ _ => [rh, ra]
  | .lhi ra _ | .j ra _ | .ja ra _ _ => [ra]
  | .add ra _ _ | .addi ra _ _ | .sub ra _ _ => [ra]
  | .seq ra _ _ | .sne ra _ _ | .slt ra _ _ | .sge ra _ _ | .sltu ra _ _ | .sgeu ra _ _ => [ra]
  | .and ra _ _ | .or ra _ _ | .xor ra _ _ | .andn ra _ _ | .andi ra _ _ | .ori ra _ _ | .xori ra _ _ => [ra]
  | .sll ra _ _ | .slr ra _ _ | .sar ra _ _ | .slli ra _ _ | .slri ra _ _ | .sari ra _ _ => [ra]
  | .lr8 ra _ _ | .lr8u ra _ _ | .lr16 ra _ _ | .lr16u ra _ _ | .lr32 ra _ _ => [ra]
  | .lx16 ra _ _ | .lx16u ra _ _ | .lx32 ra _ _ => [ra]
  | .ld8 ra _ _ | .ld8u ra _ _ | .ld16 ra _ _ | .ld16u ra _ _ | .ld32 ra _ _ => [ra]
  | .mvz ra _ _ | .mvnz ra _ _ | .csb ra _ | .brev ra _ | .swap ra _ _ => [ra]
  | .rcr ra _ | .cld ra _ _ | .trap ra _ => [ra]
  | .sr8 _ _ _ | .sr16 _ _ _ | .sr32 _ _ _ | .sx16 _ _ _ | .sx32 _ _ _ | .sd8 _ _ _ | .sd16 _ _ _ | .sd32 _ _ _ => []
  | .beq _ _ _ | .bne _ _ _ | .blt _ _ _ | .bge _ _ _ | .bltu _ _ _ | .bgeu _ _ _ => []
  | .beqi _ _ _ | .bnei _ _ _ | .bequi _ _ _ | .bneui _ _ _ | .blti _ _ _ | .bgei _ _ _ | .bltui _ _ _ | .bgeui _ _ _ => []
  | .mul _ _ _ _ | .wcr _ _ | .cst _ _ _ | .sbrk | .rte | .sleep => []
  | .itlb _ _ | .dtlb _ _ | .icache _ _ _ | .dcache _ _ _ => []

/-- The instructions that write memory (20_memory.md R71). -/
def writesMemory : Instr → Bool
  | .sr8 _ _ _ | .sr16 _ _ _ | .sr32 _ _ _ | .sx16 _ _ _ | .sx32 _ _ _ | .sd8 _ _ _ | .sd16 _ _ _ | .sd32 _ _ _
  | .swap _ _ _ => true
  | .lhi _ _ | .j _ _ | .ja _ _ _ | .beq _ _ _ | .bne _ _ _ | .blt _ _ _ | .bge _ _ _ | .bltu _ _ _
  | .bgeu _ _ _ | .beqi _ _ _ | .bnei _ _ _ | .bequi _ _ _ | .bneui _ _ _ | .blti _ _ _ | .bgei _ _ _
  | .bltui _ _ _ | .bgeui _ _ _ | .add _ _ _ | .addi _ _ _ | .sub _ _ _ | .mulu _ _ _ _ | .mul _ _ _ _
  | .seq _ _ _ | .sne _ _ _ | .slt _ _ _ | .sge _ _ _ | .sltu _ _ _ | .sgeu _ _ _ | .and _ _ _ | .or _ _ _
  | .xor _ _ _ | .andn _ _ _ | .andi _ _ _ | .ori _ _ _ | .xori _ _ _ | .sll _ _ _ | .slr _ _ _ | .sar _ _ _
  | .slli _ _ _ | .slri _ _ _ | .sari _ _ _ | .lr8 _ _ _ | .lr8u _ _ _ | .lr16 _ _ _ | .lr16u _ _ _
  | .lr32 _ _ _ | .lx16 _ _ _ | .lx16u _ _ _ | .lx32 _ _ _ | .ld8 _ _ _ | .ld8u _ _ _ | .ld16 _ _ _
  | .ld16u _ _ _ | .ld32 _ _ _ | .mvz _ _ _ | .mvnz _ _ _ | .csb _ _ | .brev _ _ | .cld _ _ _ | .cst _ _ _
  | .rcr _ _ | .wcr _ _ | .trap _ _ | .sbrk | .rte | .sleep | .itlb _ _ | .dtlb _ _ | .icache _ _ _
  | .dcache _ _ _ => false

/-- Where a branch goes (42_branch.md R140, R147). -/
def branchTo (s : State) (s10 : BitVec 10) (taken : Prop) [Decidable taken] : Word :=
  if taken then BitVec.ofInt 32 (s.pc.toInt + 4 + 4 * s10.toInt) else s.pc + 4#32

/-! ### Exception entry -/

/-- The word at `base + offset` of the vector table, in the machine's byte order (60_exceptions.md R287, R288). -/
def vectorWord (s : State) (offset : Word) : Word :=
  s.mem.read32 s.cfg.endian (translate s.cfg (vectorBase s.cfg s.sr + offset) .read true).toNat

/-- The platform does not refuse the read of that word (60_exceptions.md R300). -/
def vectorReadable (s : State) (offset : Word) : Prop :=
  accessFault s.cfg (vectorBase s.cfg s.sr + offset) 4 .read true = false

/-- A non-debug entry from `s` with that offset and saved PC (60_exceptions.md R290): only ESR, EPC, SR and `pc` change. -/
def EntersNonDebug (s : State) (offset savedPc : Word) (t : State) : Prop :=
  t.esr = s.sr.toWord ∧ t.epc = savedPc ∧ t.sr = ⟨s.sr.vb, true, false, s.sr.de, false⟩ ∧ t.dsr = s.dsr ∧ t.dpc = s.dpc ∧
    t.pc = vectorWord s offset ∧ keepsRegs s t ∧ keepsMemory s t ∧ sendsNothing s t ∧ keepsRest s t

/-- A debug entry (60_exceptions.md R291): only DSR, DPC, SR and `pc` change. -/
def EntersDebug (s : State) (savedPc : Word) (t : State) : Prop :=
  t.dsr = s.sr.toWord ∧ t.dpc = savedPc ∧ t.sr = ⟨s.sr.vb, true, true, false, false⟩ ∧ t.esr = s.esr ∧ t.epc = s.epc ∧
    t.pc = vectorWord s 0x08#32 ∧ keepsRegs s t ∧ keepsMemory s t ∧ sendsNothing s t ∧ keepsRest s t

/-! ### Invariants and runs -/

/-- The addresses of `stored` rise strictly from `lo` and are byte addresses. -/
def risesFrom : Nat → List Nat → Bool
  | _, [] => true
  | lo, a :: rest => lo ≤ a && a < 2 ^ 32 && risesFrom (a + 1) rest

/-- The state's data are in canonical form: memory (20_memory.md R60), the set of stored addresses, and the unused slot of
R0 (10_state.md R23). -/
def State.canonical (s : State) : Bool :=
  s.mem.wf && risesFrom 0 s.stored && s.regs[0] = 0#32

/-- The low two bits of `pc` are 00 (10_state.md R29). -/
def State.pcAligned (s : State) : Bool := !pcMisaligned s

/-- The CPU is running, `pc` is aligned, and the fetch gives the word `w` (20_memory.md R64). -/
def fetches (s : State) (w : Word) : Prop := s.power = .running ∧ s.pcAligned ∧ fetch s = .word w

/-- No reset is requested and no event of the debug module or of the interrupt line is accepted in this step. -/
def undisturbed (s : State) : Prop :=
  (currentInput s).dboot = false ∧ (currentInput s).manualReset = false ∧
    (s.sr.de = true → (currentInput s).instrBreak = false ∧ (currentInput s).debugInterrupt = false ∧
      (currentInput s).dataBreak = none) ∧
    (s.sr.ie = true → (currentInput s).irq = false)

/-- A run of `k` steps from `s` meets no stop: the spec gives it a meaning throughout (70_reset_and_hazards.md R344). -/
def runsFor (k : Nat) (s : State) : Prop := ∃ t : State, Sys2Proof.core.run k s = .next t

/-- A safe run: every number of steps has a meaning. -/
def Safe (s : State) : Prop := ∀ k, runsFor k s

end Sys2Proof.Machine
end

