-- ==== Sys2Proof/Certificates/Slice0/Obligations.lean ====
section
/-! DEFINITION. The statements for the provers. `Completes o P`: the outcome `o` is a next state, and `P` holds of it; the
predicates `Only…` and `Enters…` of Safety.lean say what changes and that nothing else does. -/

open Sys2Proof Sys2Proof.Machine

/-! ### Encoding (30_encoding.md) -/

/-- Every instruction, whatever its operands, is what its own word decodes to, and what the word's four bytes in memory
decode to in either byte order (R99, R111, R117). -/
def Obligations.DecodeOfEncode : Prop :=
  ∀ (i : Instr) (e : Endian), decode (encode i) = .ok i ∧ decodeBytes e (wordToBytes e (encode i)) = .ok i

/-- The rows of R111: a word lies in a row exactly when it decodes to an instruction of that row. -/
def Obligations.RowsDelimitTheDecoder : Prop :=
  ∀ (w : Word) (i : Instr), w &&& i.row.mask = i.row.code ↔ ∃ j, decode w = .ok j ∧ j.row = i.row

/-- R112 (a decision of the spec, D10): a word is reserved exactly when its OP1 and OP2 are those of no row. -/
def Obligations.ReservedWords : Prop :=
  ∀ w : Word, decode w = .error .reserved ↔ ∀ i : Instr, w &&& i.row.mask &&& 0xfc00fc00#32 ≠ i.row.code

/-- R113 (a decision of the spec, D10): the bits printed "Don't care" do not matter. -/
def Obligations.DontCareBitsIgnored : Prop :=
  (∀ (a b : BitVec 5) (op2 : BitVec 6) (h l : BitVec 5), op2 ≠ 0b010001#6 → op2 ≠ 0b110001#6 →
    decode (wordSix 0b000010#6 a b op2 h l) = decode (wordSix 0b000010#6 a b op2 0#5 l)) ∧
  (∀ (a b : BitVec 5) (op2 : BitVec 6) (h l : BitVec 5),
    decode (wordSix 0b001010#6 a b op2 h l) = decode (wordSix 0b001010#6 a b op2 0#5 l)) ∧
  (∀ (ra rb : RegNo) (x : BitVec 10), decode (wordI10 0b000000#6 ra rb 0b010100#6 x) = .ok (.csb ra rb) ∧
    decode (wordI10 0b000000#6 ra rb 0b011000#6 x) = .ok (.brev ra rb)) ∧
  (∀ (cmd : BitVec 4) (rb : RegNo) (x : BitVec 10),
    decode (wordI10 0b000000#6 (0b0#1 ++ cmd) rb 0b001101#6 x) = .ok (.itlb cmd rb) ∧
    decode (wordI10 0b000000#6 (0b0#1 ++ cmd) rb 0b001001#6 x) = .ok (.dtlb cmd rb)) ∧
  (∀ (ra x : BitVec 5) (y cr : BitVec 5), decode (wordSix 0b011001#6 ra x 0b000100#6 y cr) = .ok (.rcr ra cr) ∧
    decode (wordSix 0b011001#6 ra x 0b000101#6 y cr) = .ok (.wcr ra cr)) ∧
  (∀ (ra x : BitVec 5) (s10 : BitVec 10), decode (wordI10 0b011001#6 ra x 0b000000#6 s10) = .ok (.trap ra s10)) ∧
  (∀ (x y : BitVec 5) (z : BitVec 10), decode (wordI10 0b011001#6 x y 0b000001#6 z) = .ok .rte ∧
    decode (wordI10 0b011001#6 x y 0b000011#6 z) = .ok .sleep ∧
    decode (wordI10 0b011001#6 x y 0b010011#6 z) = .ok .sbrk)

/-- R114 (a decision of the spec, D10): a word with a printed-zero bit set is no instruction and no reserved word, and a
step that fetches it stops. -/
def Obligations.PrintedZeroBits : Prop :=
  (∀ (a b : BitVec 5) (op2 : BitVec 6) (h l : BitVec 5), op2 = 0b000100#6 ∨ op2 = 0b001000#6 ∨ op2 = 0b001100#6 →
    h ≠ 0#5 → decode (wordSix 0b000000#6 a b op2 h l) = .error .mustBeZero) ∧
  (∀ (cmd : BitVec 4) (b : BitVec 5) (op2 : BitVec 6) (x : BitVec 10),
    op2 = 0b000001#6 ∨ op2 = 0b000101#6 ∨ op2 = 0b001001#6 ∨ op2 = 0b001101#6 →
    decode (wordI10 0b000000#6 (0b1#1 ++ cmd) b op2 x) = .error .mustBeZero) ∧
  (∀ (a : BitVec 5) (z : BitVec 2) (id : BitVec 3) (op2 : BitVec 6) (x : BitVec 10),
    op2 = 0b001000#6 ∨ op2 = 0b001001#6 → z ≠ 0#2 →
    decode (wordI10 0b011001#6 a (z ++ id) op2 x) = .error .mustBeZero) ∧
  (∀ (s : State) (w : Word), undisturbed s → fetches s w → decode w = .error .mustBeZero →
    step s = .refused .mustBeZeroField)

/-- Words printed in the instruction pages decode to the instruction they stand for. -/
def Obligations.PrintedWords : Prop :=
  decode 0x24323456#32 = .ok (.lhi 1#5 0x123456#21) ∧ decode 0x14201234#32 = .ok (.j 1#5 0x1234#21) ∧
  decode 0x18411840#32 = .ok (.beq 1#5 2#5 0x40#10) ∧ decode 0x13e11080#32 = .ok (.blti 1#5 31#5 0x80#10) ∧
  decode 0x08414464#32 = .ok (.mulu 3#5 4#5 1#5 2#5) ∧ decode 0x08410403#32 = .ok (.and 3#5 1#5 2#5) ∧
  decode 0x08411003#32 = .ok (.sll 3#5 1#5 2#5) ∧ decode 0x20613c01#32 = .ok (.swap 3#5 1#5 1#10) ∧
  decode 0x64401402#32 = .ok (.wcr 2#5 2#5) ∧ decode 0x64400005#32 = .ok (.trap 2#5 5#10)

/-! ### The step -/

/-- R345 without an event: when the four bytes where `pc` fetches decode to an instruction, the step is `exec` of it, on the state
with this step's input record consumed. `exec` moves `pc` itself. -/
def Obligations.StepRunsDecodedInstruction : Prop :=
  ∀ (s : State) (i : Instr), s.power = .running → s.pc.toNat % 4 = 0 → undisturbed s →
    accessFault s.cfg s.pc 4 .fetch s.sr.sm = false →
    (s.cfg.fetchSeesStores = true ∨ ∀ k, k < 4 → (s.physical .fetch s.pc).toNat + k ∉ s.stored) →
    decodeBytes s.cfg.endian ((List.range 4).map fun k => s.mem.read ((s.physical .fetch s.pc).toNat + k)) = .ok i →
    step s = exec i (consumeInput s)

/-- R282 cause (a): a reserved word raises ILLINS with its own address saved; R283: a fetch the platform refuses raises
IFAULT with that address saved. -/
def Obligations.FetchAndDecodeExceptions : Prop :=
  (∀ (s : State) (w : Word), undisturbed s → fetches s w → decode w = .error .reserved → vectorReadable s 0x04#32 →
      Completes (step s) (EntersNonDebug (consumeInput s) 0x04#32 s.pc)) ∧
  (∀ s : State, s.power = .running → s.pcAligned → undisturbed s → accessFault s.cfg s.pc 4 .fetch s.sr.sm = true →
      vectorReadable s 0x18#32 → Completes (step s) (EntersNonDebug (consumeInput s) 0x18#32 s.pc))

/-- The two stops of the fetch, decisions of the spec (D4, D9): a misaligned `pc` (R70), and a byte that a store of this
run has written, unless the platform says that fetch sees stores (R81, R342). -/
def Obligations.FetchStops : Prop :=
  (∀ s : State, s.power = .running → (currentInput s).dboot = false → (currentInput s).manualReset = false →
    s.pc.toNat % 4 ≠ 0 → step s = .fault .misalignedFetch) ∧
  (∀ (s : State) (k : Nat), s.power = .running → s.pcAligned → undisturbed s →
    accessFault s.cfg s.pc 4 .fetch s.sr.sm = false → s.cfg.fetchSeesStores = false → k < 4 →
    (s.physical .fetch s.pc).toNat + k ∈ s.stored → step s = .fault .fetchOfStoredByte)

/-- R295 steps 5 to 8 are a pure test: where the test names an exception, the meaning takes that exception, with the saved
PC of R292, and TRAP's immediate is the only effect before it. -/
def Obligations.OwnExceptionIsTaken : Prop :=
  ∀ (i : Instr) (s : State) (e : Exception), ownException i s = some e →
    exec i s = match i with
      | .trap ra s10 => takeException .trap (s.pc + 4#32) (s.writeReg ra (BitVec.ofInt 32 s10.toInt))
      | .sbrk => if s.sr.de then takeException .sbrk (s.pc + 4#32) s else takeException .illins s.pc s
      | _ => takeException e s.pc s

/-- R289, R295: an exception of the instruction itself is taken whatever interrupt, debug interrupt or data breakpoint is
pending. -/
def Obligations.SynchronousFirst : Prop :=
  ∀ (s : State) (w : Word) (i : Instr) (e : Exception), fetches s w → decode w = .ok i → ownException i s = some e →
    (currentInput s).dboot = false → (currentInput s).manualReset = false →
    (s.sr.de = true → (currentInput s).instrBreak = false) → step s = exec i (consumeInput s)

/-- R296, R33: with SR.IE = 1 an asserted request is taken as INT before an instruction that raises nothing of its own; that
instruction is not executed, and its address is saved. With SR.IE = 0 the request changes nothing for a running CPU. -/
def Obligations.Interrupts : Prop :=
  (∀ (s : State) (w : Word) (i : Instr), fetches s w → decode w = .ok i → ownException i s = none →
      (∃ t, exec i (consumeInput s) = .next t) → (currentInput s).dboot = false → (currentInput s).manualReset = false →
      (s.sr.de = true → (currentInput s).instrBreak = false ∧ (currentInput s).debugInterrupt = false ∧
        (currentInput s).dataBreak = none) →
      (currentInput s).irq = true → s.sr.ie = true → vectorReadable s 0x10#32 →
      Completes (step s) (EntersNonDebug (consumeInput s) 0x10#32 s.pc)) ∧
  (∀ (s : State) (inp : StepInput) (rest : List StepInput), s.power = .running → s.sr.ie = false →
      step (s.withInputs (inp :: rest)) = step (s.withInputs ({ inp with irq := false } :: rest)))

/-- R285, R291, R295 for the events of the debug module with SR.DE = 1: an instruction breakpoint before the fetch, a data
breakpoint on an access that raises nothing (the platform says its DPC, D16), a debug interrupt before an interrupt. -/
def Obligations.DebugEventsAccepted : Prop :=
  ∀ s : State, s.sr.de = true → s.power = .running → s.pcAligned → vectorReadable s 0x08#32 →
    (currentInput s).dboot = false → (currentInput s).manualReset = false →
    ((currentInput s).instrBreak = true → Completes (step s) (EntersDebug (consumeInput s) s.pc)) ∧
    ((currentInput s).instrBreak = false → ∀ (w : Word) (i : Instr) (d : Word), fetches s w → decode w = .ok i →
      ownException i s = none → (∃ t, exec i (consumeInput s) = .next t) → (dataAccess i s).isSome →
      (currentInput s).dataBreak = some d → Completes (step s) (EntersDebug (consumeInput s) d)) ∧
    ((currentInput s).instrBreak = false → ∀ (w : Word) (i : Instr), fetches s w → decode w = .ok i →
      ownException i s = none → (∃ t, exec i (consumeInput s) = .next t) → (currentInput s).dataBreak = none →
      (currentInput s).debugInterrupt = true → Completes (step s) (EntersDebug (consumeInput s) s.pc))

/-- R34: DE = 0 bars the debug exceptions and not the debug bootstrap, makes SBRK an illegal instruction, is cleared by a
debug entry and kept by a non-debug entry; SBRK's two entries are R246, R290 to R292. That the events of the debug module
are inputs, and that IBRK, DBRK and the debug interrupt enter as SBRK does, is the spec's own decision D16 (log 18). -/
def Obligations.DebugEnable : Prop :=
  (∀ (s : State) (inp : StepInput) (rest : List StepInput), s.sr.de = false →
    step (s.withInputs (inp :: rest)) = step (s.withInputs
      ({ inp with instrBreak := false, debugInterrupt := false, dataBreak := none } :: rest))) ∧
  (∀ s : State, (currentInput s).dboot = true → step s = debugBootstrap (consumeInput s)) ∧
  (∀ s : State, s.sr.de = true → vectorReadable s 0x08#32 →
    Completes (exec .sbrk s) (EntersDebug s (s.pc + 4#32))) ∧
  (∀ s : State, s.sr.de = false → vectorReadable s 0x04#32 →
    Completes (exec .sbrk s) (EntersNonDebug s 0x04#32 s.pc)) ∧
  (∀ (e : Exception) (p : Word) (s t : State), takeException e p s = .next t →
    t.sr.de = if e = .ibrk ∨ e = .dbrk ∨ e = .sbrk then false else s.sr.de)

/-- R248, R310: a CPU in sleep or standby mode executes nothing until the interrupt request; then INT is taken with the
address after SLEEP saved, or, with SR.IE = 0, the run stops (the spec's decision, D21). That a debug interrupt or breakpoint
asserted meanwhile, with SR.DE = 1, neither ends the wait nor goes before INT is the model's choice (DESIGN CHOICE, log 23). -/
def Obligations.SleepingWaits : Prop :=
  ∀ s : State, s.power = .sleep ∨ s.power = .standby → (currentInput s).dboot = false →
    (currentInput s).manualReset = false →
    ((currentInput s).irq = false → step s = .next (consumeInput s)) ∧
    ((currentInput s).irq = true → s.sr.ie = true → vectorReadable s 0x10#32 →
      Completes (step s) (EntersNonDebug ((consumeInput s).withPower .running) 0x10#32 s.pc)) ∧
    ((currentInput s).irq = true → s.sr.ie = false → step s = .fault .wakeWithInterruptsMasked)

/-! ### Resets (70_reset_and_hazards.md) -/

/-- R331: the start of a run after a power-on reset, for every platform, memory and value of the undefined registers; the
vector word is read through `cfg.translate`, by default the identity (R76). -/
def Obligations.PowerOnReset : Prop :=
  ∀ (c : Config) (m : Memory) (inputs : List StepInput) (esr epc dsr dpc : Word),
    accessFault c 0x80000000#32 4 .read true = false →
    Completes (powerOn c m inputs esr epc dsr dpc false) fun t =>
      (∀ r, t.reg r = 0#32) ∧ t.sr.toWord = 0x00000008#32 ∧ t.sr = ⟨0#3, true, false, false, false⟩ ∧ t.esr = esr ∧
        t.epc = epc ∧ t.dsr = dsr ∧ t.dpc = dpc ∧
        t.pc = m.read32 c.endian (translate c 0x80000000#32 .read true).toNat ∧ t.mem = m ∧ t.cfg = c

/-- R332, R309, R333 (decisions of the spec, D22): a manual reset and a debug bootstrap (whatever SR.DE is), from a running or
a waiting CPU. Nothing is claimed of the registers the spec gives no value afterwards; that memory is kept is the model's
choice (log 24). -/
def Obligations.OtherResets : Prop :=
  (∀ s : State, (currentInput s).dboot = false → (currentInput s).manualReset = true →
      accessFault s.cfg 0x80000000#32 4 .read true = false →
      Completes (step s) fun t =>
        t.esr = s.sr.toWord ∧ t.epc = s.pc ∧ t.sr.toWord = 0x00000008#32 ∧
          t.pc = s.mem.read32 s.cfg.endian (translate s.cfg 0x80000000#32 .read true).toNat ∧
          t.power = .running ∧ t.cfg = s.cfg ∧ keepsMemory s t) ∧
  (∀ s : State, (currentInput s).dboot = true → accessFault s.cfg 0xEC000000#32 4 .read true = false →
      Completes (step s) fun t =>
        t.dsr = s.sr.toWord ∧ t.dpc = s.pc ∧ t.sr.sm = true ∧ t.sr.ds = true ∧ t.sr.ie = false ∧ t.sr.de = false ∧
          t.pc = s.mem.read32 s.cfg.endian (translate s.cfg 0xEC000000#32 .read true).toNat ∧ t.power = .running ∧ t.cfg = s.cfg ∧
          keepsMemory s t)

/-! ### Invariants and rules of the whole machine -/

/-- Every step keeps the canonical form of memory, of the set of stored addresses, and of the register file. -/
def Obligations.StepKeepsCanonical : Prop :=
  ∀ s t : State, s.canonical → step s = .next t → t.canonical

/-- The state after reset has that form (`pc` apart, its memory lists nothing). -/
def Obligations.ResetCanonical : Prop := State.reset.canonical = true ∧ State.reset.mem = []

/-- R66 (a decision of the spec, D2): no step changes the byte order, nor any other field of the configuration; and each
step consumes exactly one input record (log 15). -/
def Obligations.StepKeepsConfiguration : Prop :=
  ∀ s t : State, step s = .next t → t.cfg = s.cfg ∧ t.inputs = s.inputs.tail

/-- R304: a step enters supervisor mode only by an exception or a reset (from the registers, memory and configuration of
the step, TRAP's immediate apart), and leaves it only by RTE; every entry sets SM; WCR keeps it; reset has it set. -/
def Obligations.ModeTransitions : Prop :=
  (∀ s t : State, step s = .next t → s.sr.sm = false → t.sr.sm = true →
    ∃ u, u.sr = s.sr ∧ u.mem = s.mem ∧ u.cfg = s.cfg ∧
      ((∃ e p, takeException e p u = .next t) ∨ manualReset u = .next t ∨ debugBootstrap u = .next t)) ∧
  (∀ s t : State, step s = .next t → s.sr.sm = true → t.sr.sm = false →
    ∃ w, fetches s w ∧ decode w = .ok .rte ∧ exec .rte (consumeInput s) = .next t) ∧
  (∀ (e : Exception) (p : Word) (s t : State), takeException e p s = .next t → t.sr.sm = true) ∧
  (∀ (ra : RegNo) (cr : BitVec 5) (s t : State), s.sr.sm = true → exec (.wcr ra cr) s = .next t → t.sr.sm = true) ∧
  State.reset.sr.sm = true

/-- R302: what user mode executes either leaves the five control registers alone or is the entry to an exception. -/
def Obligations.UserModeKeepsControl : Prop :=
  ∀ (i : Instr) (s t : State), s.sr.sm = false → exec i s = .next t →
    keepsControl s t ∨ ∃ e p u, keepsControl s u ∧ takeException e p u = .next t

/-- R24: no instruction writes a general register but its own destinations, exceptions included. -/
def Obligations.RegisterFrame : Prop :=
  ∀ (i : Instr) (s t : State) (r : RegNo), exec i s = .next t → r ∉ destinations i → t.reg r = s.reg r

/-- R71: only the stores and SWAP write memory, and they write only the bytes of their access. -/
def Obligations.MemoryFrame : Prop :=
  (∀ (i : Instr) (s t : State) (a : Nat), exec i s = .next t → writesMemory i = false → t.mem.read a = s.mem.read a) ∧
  (∀ (i : Instr) (s t : State), exec i s = .next t → writesMemory i = true →
    ∃ d, dataAccess i s = some d ∧ ∀ a, ¬d.covers s a → t.mem.read a = s.mem.read a)

/-- R29: an instruction other than JA and RTE that is no exception entry keeps `pc` a multiple of 4. -/
def Obligations.PcAlignmentKept : Prop :=
  ∀ (i : Instr) (s t : State), s.pcAligned → exec i s = .next t → (∀ ra rb u, i ≠ .ja ra rb u) → i ≠ .rte →
    t.pcAligned ∨ ∃ e p u, u.sr = s.sr ∧ u.mem = s.mem ∧ takeException e p u = .next t

/-! ### Memory (20_memory.md) -/

/-- R61: the bytes of a word and of a halfword in both byte orders, and the two halves of a word; R67 (derived in the spec
from R61 to R63): what narrower loads see of the word 0x11223344. -/
def Obligations.ByteOrder : Prop :=
  (∀ (m : Memory) (a : Nat),
      (m.read32 .big a).toNat =
        (m.read a).toNat * 2 ^ 24 + (m.read (a + 1)).toNat * 2 ^ 16 + (m.read (a + 2)).toNat * 2 ^ 8 + (m.read (a + 3)).toNat ∧
      (m.read32 .little a).toNat =
        (m.read (a + 3)).toNat * 2 ^ 24 + (m.read (a + 2)).toNat * 2 ^ 16 + (m.read (a + 1)).toNat * 2 ^ 8 + (m.read a).toNat ∧
      (m.read16 .big a).toNat = (m.read a).toNat * 2 ^ 8 + (m.read (a + 1)).toNat ∧
      (m.read16 .little a).toNat = (m.read (a + 1)).toNat * 2 ^ 8 + (m.read a).toNat ∧
      m.read32 .big a = m.read16 .big a ++ m.read16 .big (a + 2) ∧
      m.read32 .little a = m.read16 .little (a + 2) ++ m.read16 .little a) ∧
  (∀ (m : Memory) (a : Word), a.toNat % 4 = 0 →
      ((m.store .big a 0x11223344#32 .word).load .big a .byte = 0x11#32 ∧
        (m.store .big a 0x11223344#32 .word).load .big (a + 3#32) .byte = 0x44#32 ∧
        (m.store .big a 0x11223344#32 .word).load .big a .half = 0x1122#32 ∧
        (m.store .big a 0x11223344#32 .word).load .big (a + 2#32) .half = 0x3344#32) ∧
      ((m.store .little a 0x11223344#32 .word).load .little a .byte = 0x44#32 ∧
        (m.store .little a 0x11223344#32 .word).load .little (a + 3#32) .byte = 0x11#32 ∧
        (m.store .little a 0x11223344#32 .word).load .little a .half = 0x3344#32 ∧
        (m.store .little a 0x11223344#32 .word).load .little (a + 2#32) .half = 0x1122#32))

/-- R62, R63, R78: a load returns the low bits that the latest store to the same bytes stored, and a store changes no other
byte. -/
def Obligations.StoreThenLoad : Prop :=
  ∀ (e : Endian) (m : Memory) (a v : Word) (sz : Size),
    ((m.store e a v sz).load e a sz).toNat = v.toNat % 2 ^ (8 * sz.bytes) ∧
    ∀ x, x < a.toNat ∨ a.toNat + sz.bytes ≤ x → (m.store e a v sz).read x = m.read x

/-- R200, R74: the effective addresses, modulo 2^32; R76 (a decision of the spec, D7): translation is the identity for a
platform that gives no other. -/
def Obligations.EffectiveAddresses : Prop :=
  (∀ (s : State) (rb rc : RegNo) (s10 : BitVec 10) (k : Nat),
    (eaReg s rb rc).toNat = ((s.reg rb).toNat + (s.reg rc).toNat) % 2 ^ 32 ∧
    (eaScaled s rb rc k).toNat = ((s.reg rb).toNat + (s.reg rc).toNat * 2 ^ k) % 2 ^ 32 ∧
    eaImm s rb s10 k = BitVec.ofInt 32 ((s.reg rb).toInt + s10.toInt * 2 ^ k)) ∧
  (∀ (s : State) (kind : AccessKind) (a : Word), s.cfg.translations = [] → s.physical kind a = a)

/-- R68, R69, R62, R63: what every load, store and SWAP does when its access is misaligned (a stop or DFAULT, as the
configuration says, D3), when the platform refuses it (DFAULT, R283), and when neither holds (it completes). -/
def Obligations.DataAccessOutcomes : Prop :=
  ∀ (i : Instr) (s : State) (d : DataAccess), dataAccess i s = some d →
    (d.addr.toNat % d.size.bytes ≠ 0 → s.cfg.misaligned = .refuse → exec i s = .fault .misalignedData) ∧
    (d.addr.toNat % d.size.bytes ≠ 0 → s.cfg.misaligned = .dfault → vectorReadable s 0x18#32 →
      Completes (exec i s) (EntersNonDebug s 0x18#32 s.pc)) ∧
    (∀ k, d.addr.toNat % d.size.bytes = 0 → k ∈ d.kinds → accessFault s.cfg d.addr d.size.bytes k s.sr.sm = true →
      vectorReadable s 0x18#32 → Completes (exec i s) (EntersNonDebug s 0x18#32 s.pc)) ∧
    (d.addr.toNat % d.size.bytes = 0 → (∀ k ∈ d.kinds, accessFault s.cfg d.addr d.size.bytes k s.sr.sm = false) →
      Completes (exec i s) fun t => t.pc = s.pc + 4#32)

/-! ### Exceptions (60_exceptions.md) -/

/-- R290, R291, R287: taking any exception whose vector word can be read, and the stop when it cannot (R300, D14); R288: the
vector table base, 0xEC000000 in debug host mode (D15), else 0x80000000 + SR.VB * 0x04000000. -/
def Obligations.ExceptionEntry : Prop :=
  (∀ (s : State) (p : Word),
      (vectorReadable s 0x04#32 → Completes (takeException .illins p s) (EntersNonDebug s 0x04#32 p)) ∧
      (vectorReadable s 0x10#32 → Completes (takeException .int p s) (EntersNonDebug s 0x10#32 p)) ∧
      (vectorReadable s 0x14#32 → Completes (takeException .trap p s) (EntersNonDebug s 0x14#32 p)) ∧
      (vectorReadable s 0x18#32 → Completes (takeException .dfault p s) (EntersNonDebug s 0x18#32 p) ∧
        Completes (takeException .ifault p s) (EntersNonDebug s 0x18#32 p)) ∧
      (vectorReadable s 0x08#32 → Completes (takeException .ibrk p s) (EntersDebug s p) ∧
        Completes (takeException .dbrk p s) (EntersDebug s p) ∧ Completes (takeException .sbrk p s) (EntersDebug s p)) ∧
      (∀ e, ¬vectorReadable s e.offset → takeException e p s = .fault .vectorUnreadable)) ∧
  (∀ (c : Config) (r : StatusReg), (vectorBase c r).toNat =
      if c.debugHostMode then 0xEC000000 else 0x80000000 + r.vb.toNat * 0x04000000)

/-- R303: RCR, WCR, RTE, SLEEP, ITLB and DTLB in user mode raise ILLINS with no other effect. -/
def Obligations.PrivilegedInUserMode : Prop :=
  ∀ s : State, s.sr.sm = false → vectorReadable s 0x04#32 →
    (∀ ra cr, Completes (exec (.rcr ra cr) s) (EntersNonDebug s 0x04#32 s.pc)) ∧
    (∀ ra cr, Completes (exec (.wcr ra cr) s) (EntersNonDebug s 0x04#32 s.pc)) ∧
    Completes (exec .rte s) (EntersNonDebug s 0x04#32 s.pc) ∧
    Completes (exec .sleep s) (EntersNonDebug s 0x04#32 s.pc) ∧
    (∀ cmd rb, Completes (exec (.itlb cmd rb) s) (EntersNonDebug s 0x04#32 s.pc)) ∧
    (∀ cmd rb, Completes (exec (.dtlb cmd rb) s) (EntersNonDebug s 0x04#32 s.pc))

/-! ### Immediate load and jumps -/

/-- R130: LHI. -/
def Obligations.LhiResult : Prop :=
  ∀ (s : State) (ra : RegNo) (u21 : BitVec 21),
    Completes (exec (.lhi ra u21) s) (OnlyReg s ra (BitVec.ofNat 32 (u21.toNat * 2 ^ 11)))

/-- R131, R121: the pair that `mova` stands for (LHI of the high 21 bits, ORI of the low 11) leaves the whole 32-bit value
in the register. -/
def Obligations.MovaBuildsTheValue : Prop :=
  ∀ (s : State) (ra : RegNo) (v : Word), ra ≠ 0#5 →
    ∃ i j, macroMova ra v = [i, j] ∧
      Completes (exec i s) fun t => Completes (exec j t) fun u => u.reg ra = v ∧ u.pc = s.pc + 8#32 ∧
        ∀ r, r ≠ ra → u.reg r = s.reg r

/-- R136, R137: J and JA link the following address (nothing if the register is R0) and jump; no delay slot, no other
change. JA's base is read before the link is written. -/
def Obligations.JumpResults : Prop :=
  (∀ (s : State) (ra : RegNo) (s21 : BitVec 21), Completes (exec (.j ra s21) s)
    (OnlyRegAndPc s ra (s.pc + 4#32) (BitVec.ofInt 32 (s.pc.toInt + 4 + 4 * s21.toInt)))) ∧
  (∀ (s : State) (ra rb : RegNo) (u10 : BitVec 10), Completes (exec (.ja ra rb u10) s)
    (OnlyRegAndPc s ra (s.pc + 4#32) (s.reg rb ||| BitVec.ofNat 32 (4 * u10.toNat))))

/-! ### Branches (42_branch.md) -/

/-- R140 to R146: the register-register branches; the left comparand is Rb. Only `pc` changes. -/
def Obligations.RegisterBranches : Prop :=
  ∀ (s : State) (rb ra : RegNo) (s10 : BitVec 10),
    Completes (exec (.beq rb ra s10) s) (OnlyPc s (branchTo s s10 (s.reg rb = s.reg ra))) ∧
    Completes (exec (.bne rb ra s10) s) (OnlyPc s (branchTo s s10 (s.reg rb ≠ s.reg ra))) ∧
    Completes (exec (.blt rb ra s10) s) (OnlyPc s (branchTo s s10 ((s.reg rb).toInt < (s.reg ra).toInt))) ∧
    Completes (exec (.bge rb ra s10) s) (OnlyPc s (branchTo s s10 ((s.reg rb).toInt ≥ (s.reg ra).toInt))) ∧
    Completes (exec (.bltu rb ra s10) s) (OnlyPc s (branchTo s s10 ((s.reg rb).toNat < (s.reg ra).toNat))) ∧
    Completes (exec (.bgeu rb ra s10) s) (OnlyPc s (branchTo s s10 ((s.reg rb).toNat ≥ (s.reg ra).toNat)))

/-- R147 to R155: the register-immediate branches; the immediate is read as signed, or with U as 0..31. -/
def Obligations.ImmediateBranches : Prop :=
  ∀ (s : State) (rb : RegNo) (i5 : BitVec 5) (s10 : BitVec 10),
    Completes (exec (.beqi rb i5 s10) s) (OnlyPc s (branchTo s s10 ((s.reg rb).toInt = i5.toInt))) ∧
    Completes (exec (.bnei rb i5 s10) s) (OnlyPc s (branchTo s s10 ((s.reg rb).toInt ≠ i5.toInt))) ∧
    Completes (exec (.bequi rb i5 s10) s) (OnlyPc s (branchTo s s10 ((s.reg rb).toNat = i5.toNat))) ∧
    Completes (exec (.bneui rb i5 s10) s) (OnlyPc s (branchTo s s10 ((s.reg rb).toNat ≠ i5.toNat))) ∧
    Completes (exec (.blti rb i5 s10) s) (OnlyPc s (branchTo s s10 ((s.reg rb).toInt < i5.toInt))) ∧
    Completes (exec (.bgei rb i5 s10) s) (OnlyPc s (branchTo s s10 ((s.reg rb).toInt ≥ i5.toInt))) ∧
    Completes (exec (.bltui rb i5 s10) s) (OnlyPc s (branchTo s s10 ((s.reg rb).toNat < i5.toNat))) ∧
    Completes (exec (.bgeui rb i5 s10) s) (OnlyPc s (branchTo s s10 ((s.reg rb).toNat ≥ i5.toNat)))

/-! ### Arithmetic, comparison, bitwise, shift -/

/-- R161 to R163, R160: sums and differences modulo 2^32, no flag, no exception, no other change. -/
def Obligations.SumResults : Prop :=
  (∀ (s : State) (ra rb rc : RegNo),
    Completes (exec (.add ra rb rc) s) (OnlyReg s ra (BitVec.ofInt 32 ((s.reg rb).toInt + (s.reg rc).toInt))) ∧
    Completes (exec (.sub ra rb rc) s) (OnlyReg s ra (BitVec.ofInt 32 ((s.reg rb).toInt - (s.reg rc).toInt)))) ∧
  (∀ (s : State) (ra rb : RegNo) (s10 : BitVec 10),
    Completes (exec (.addi ra rb s10) s) (OnlyReg s ra (BitVec.ofInt 32 ((s.reg rb).toInt + s10.toInt))))

/-- R164: MULU writes the high half of the unsigned product to Rh and the low half to Ra, either discarded if it is R0;
with one register, not R0, for both halves it stops (the spec's decision, D25). -/
def Obligations.MuluResult : Prop :=
  (∀ (s : State) (rh ra rb rc : RegNo), rh ≠ ra ∨ ra = 0#5 →
    Completes (exec (.mulu rh ra rb rc) s) fun t =>
      t.pc = s.pc + 4#32 ∧
      (∀ r, t.reg r = if r = ra ∧ ra ≠ 0#5 then BitVec.ofNat 32 ((s.reg rb).toNat * (s.reg rc).toNat)
        else if r = rh ∧ rh ≠ 0#5 then BitVec.ofNat 32 ((s.reg rb).toNat * (s.reg rc).toNat / 2 ^ 32)
        else s.reg r) ∧
      keepsControl s t ∧ keepsMemory s t ∧ sendsNothing s t ∧ keepsRest s t) ∧
  (∀ (s : State) (ra rb rc : RegNo), ra ≠ 0#5 →
    exec (.mulu ra ra rb rc) s = .refused .mulDestinationsCoincide)

/-- R165 (a decision of the spec, D26): MUL has an encoding and no operation; it stops, and is not a reserved word. -/
def Obligations.MulStops : Prop :=
  ∀ (s : State) (rh ra rb rc : RegNo), exec (.mul rh ra rb rc) s = .refused .undescribedMul ∧
    decode (encode (.mul rh ra rb rc)) ≠ .error .reserved

/-- R170 to R176: a comparison writes 1 or 0. -/
def Obligations.CompareResults : Prop :=
  ∀ (s : State) (ra rb rc : RegNo),
    Completes (exec (.seq ra rb rc) s) (OnlyReg s ra (if s.reg rb = s.reg rc then 1#32 else 0#32)) ∧
    Completes (exec (.sne ra rb rc) s) (OnlyReg s ra (if s.reg rb ≠ s.reg rc then 1#32 else 0#32)) ∧
    Completes (exec (.slt ra rb rc) s) (OnlyReg s ra (if (s.reg rb).toInt < (s.reg rc).toInt then 1#32 else 0#32)) ∧
    Completes (exec (.sge ra rb rc) s) (OnlyReg s ra (if (s.reg rb).toInt ≥ (s.reg rc).toInt then 1#32 else 0#32)) ∧
    Completes (exec (.sltu ra rb rc) s) (OnlyReg s ra (if (s.reg rb).toNat < (s.reg rc).toNat then 1#32 else 0#32)) ∧
    Completes (exec (.sgeu ra rb rc) s) (OnlyReg s ra (if (s.reg rb).toNat ≥ (s.reg rc).toNat then 1#32 else 0#32))

/-- R180 to R187: bit by bit; the 16-bit immediate is sign-extended (bit 15 stands for every higher bit). -/
def Obligations.BitwiseResults : Prop :=
  (∀ (s : State) (ra rb rc : RegNo),
    (∃ v, Completes (exec (.and ra rb rc) s) (OnlyReg s ra v) ∧
      ∀ k, k < 32 → v.getLsbD k = ((s.reg rb).getLsbD k && (s.reg rc).getLsbD k)) ∧
    (∃ v, Completes (exec (.or ra rb rc) s) (OnlyReg s ra v) ∧
      ∀ k, k < 32 → v.getLsbD k = ((s.reg rb).getLsbD k || (s.reg rc).getLsbD k)) ∧
    (∃ v, Completes (exec (.xor ra rb rc) s) (OnlyReg s ra v) ∧
      ∀ k, k < 32 → v.getLsbD k = ((s.reg rb).getLsbD k ^^ (s.reg rc).getLsbD k)) ∧
    (∃ v, Completes (exec (.andn ra rb rc) s) (OnlyReg s ra v) ∧
      ∀ k, k < 32 → v.getLsbD k = ((s.reg rb).getLsbD k && !(s.reg rc).getLsbD k))) ∧
  (∀ (s : State) (ra rb : RegNo) (s16 : BitVec 16),
    (∃ v, Completes (exec (.andi ra rb s16) s) (OnlyReg s ra v) ∧
      ∀ k, k < 32 → v.getLsbD k = ((s.reg rb).getLsbD k && s16.getLsbD (min k 15))) ∧
    (∃ v, Completes (exec (.ori ra rb s16) s) (OnlyReg s ra v) ∧
      ∀ k, k < 32 → v.getLsbD k = ((s.reg rb).getLsbD k || s16.getLsbD (min k 15))) ∧
    (∃ v, Completes (exec (.xori ra rb s16) s) (OnlyReg s ra v) ∧
      ∀ k, k < 32 → v.getLsbD k = ((s.reg rb).getLsbD k ^^ s16.getLsbD (min k 15))))

/-- R190 to R196: of an amount register only the low 5 bits count; the right shifts divide (SAR and SARI rounding down, the
sign kept). -/
def Obligations.ShiftResults : Prop :=
  (∀ (s : State) (ra rb rc : RegNo),
      Completes (exec (.sll ra rb rc) s)
        (OnlyReg s ra (BitVec.ofNat 32 ((s.reg rb).toNat * 2 ^ ((s.reg rc).toNat % 32)))) ∧
      Completes (exec (.slr ra rb rc) s)
        (OnlyReg s ra (BitVec.ofNat 32 ((s.reg rb).toNat / 2 ^ ((s.reg rc).toNat % 32)))) ∧
      Completes (exec (.sar ra rb rc) s)
        (OnlyReg s ra (BitVec.ofInt 32 ((s.reg rb).toInt / 2 ^ ((s.reg rc).toNat % 32))))) ∧
  (∀ (s : State) (ra rb : RegNo) (u5 : BitVec 5),
      Completes (exec (.slli ra rb u5) s) (OnlyReg s ra (BitVec.ofNat 32 ((s.reg rb).toNat * 2 ^ u5.toNat))) ∧
      Completes (exec (.slri ra rb u5) s) (OnlyReg s ra (BitVec.ofNat 32 ((s.reg rb).toNat / 2 ^ u5.toNat))) ∧
      Completes (exec (.sari ra rb u5) s) (OnlyReg s ra (BitVec.ofInt 32 ((s.reg rb).toInt / 2 ^ u5.toNat))))

/-! ### Loads and stores (47_load_store.md) -/

/-- R202 to R209: the R+R and scaled-index loads, for an access that passes the checks of R62. -/
def Obligations.RegisterLoads : Prop :=
  (∀ (s : State) (ra rb rc : RegNo),
      (checkAccess s ⟨eaReg s rb rc, .byte, [.read]⟩ = .ok →
        Completes (exec (.lr8 ra rb rc) s)
          (OnlyReg s ra (BitVec.ofInt 32 (s.byteAt (eaReg s rb rc)).toInt)) ∧
        Completes (exec (.lr8u ra rb rc) s)
          (OnlyReg s ra (BitVec.ofNat 32 (s.byteAt (eaReg s rb rc)).toNat))) ∧
      (checkAccess s ⟨eaReg s rb rc, .half, [.read]⟩ = .ok →
        Completes (exec (.lr16 ra rb rc) s)
          (OnlyReg s ra (BitVec.ofInt 32 (s.halfAt (eaReg s rb rc)).toInt)) ∧
        Completes (exec (.lr16u ra rb rc) s)
          (OnlyReg s ra (BitVec.ofNat 32 (s.halfAt (eaReg s rb rc)).toNat))) ∧
      (checkAccess s ⟨eaReg s rb rc, .word, [.read]⟩ = .ok →
        Completes (exec (.lr32 ra rb rc) s) (OnlyReg s ra (s.wordAt (eaReg s rb rc))))) ∧
  (∀ (s : State) (ra rb rc : RegNo),
      (checkAccess s ⟨eaScaled s rb rc 1, .half, [.read]⟩ = .ok →
        Completes (exec (.lx16 ra rb rc) s)
          (OnlyReg s ra (BitVec.ofInt 32 (s.halfAt (eaScaled s rb rc 1)).toInt)) ∧
        Completes (exec (.lx16u ra rb rc) s)
          (OnlyReg s ra (BitVec.ofNat 32 (s.halfAt (eaScaled s rb rc 1)).toNat))) ∧
      (checkAccess s ⟨eaScaled s rb rc 2, .word, [.read]⟩ = .ok →
        Completes (exec (.lx32 ra rb rc) s) (OnlyReg s ra (s.wordAt (eaScaled s rb rc 2)))))

/-- R210 to R214: the R+Imm loads, the offset scaled by the width. -/
def Obligations.ImmediateLoads : Prop :=
  ∀ (s : State) (ra rb : RegNo) (s10 : BitVec 10),
    (checkAccess s ⟨eaImm s rb s10 0, .byte, [.read]⟩ = .ok →
      Completes (exec (.ld8 ra rb s10) s)
        (OnlyReg s ra (BitVec.ofInt 32 (s.byteAt (eaImm s rb s10 0)).toInt)) ∧
      Completes (exec (.ld8u ra rb s10) s)
        (OnlyReg s ra (BitVec.ofNat 32 (s.byteAt (eaImm s rb s10 0)).toNat))) ∧
    (checkAccess s ⟨eaImm s rb s10 1, .half, [.read]⟩ = .ok →
      Completes (exec (.ld16 ra rb s10) s)
        (OnlyReg s ra (BitVec.ofInt 32 (s.halfAt (eaImm s rb s10 1)).toInt)) ∧
      Completes (exec (.ld16u ra rb s10) s)
        (OnlyReg s ra (BitVec.ofNat 32 (s.halfAt (eaImm s rb s10 1)).toNat))) ∧
    (checkAccess s ⟨eaImm s rb s10 2, .word, [.read]⟩ = .ok →
      Completes (exec (.ld32 ra rb s10) s) (OnlyReg s ra (s.wordAt (eaImm s rb s10 2))))

/-- R215 to R219: the R+R and scaled-index stores write the low bits of Ra to the bytes of their access and nothing else. -/
def Obligations.RegisterStores : Prop :=
  ∀ (s : State) (ra rb rc : RegNo),
    (checkAccess s ⟨eaReg s rb rc, .byte, [.write]⟩ = .ok →
      Completes (exec (.sr8 ra rb rc) s) fun t => OnlyStore s ⟨eaReg s rb rc, .byte, [.write]⟩ t ∧
        t.mem.read (s.physical .write (eaReg s rb rc)).toNat = (s.reg ra).extractLsb' 0 8) ∧
    (checkAccess s ⟨eaReg s rb rc, .half, [.write]⟩ = .ok →
      Completes (exec (.sr16 ra rb rc) s) fun t => OnlyStore s ⟨eaReg s rb rc, .half, [.write]⟩ t ∧
        t.mem.read16 s.cfg.endian (s.physical .write (eaReg s rb rc)).toNat = (s.reg ra).extractLsb' 0 16) ∧
    (checkAccess s ⟨eaReg s rb rc, .word, [.write]⟩ = .ok →
      Completes (exec (.sr32 ra rb rc) s) fun t => OnlyStore s ⟨eaReg s rb rc, .word, [.write]⟩ t ∧
        t.mem.read32 s.cfg.endian (s.physical .write (eaReg s rb rc)).toNat = s.reg ra) ∧
    (checkAccess s ⟨eaScaled s rb rc 1, .half, [.write]⟩ = .ok →
      Completes (exec (.sx16 ra rb rc) s) fun t => OnlyStore s ⟨eaScaled s rb rc 1, .half, [.write]⟩ t ∧
        t.mem.read16 s.cfg.endian (s.physical .write (eaScaled s rb rc 1)).toNat = (s.reg ra).extractLsb' 0 16) ∧
    (checkAccess s ⟨eaScaled s rb rc 2, .word, [.write]⟩ = .ok →
      Completes (exec (.sx32 ra rb rc) s) fun t => OnlyStore s ⟨eaScaled s rb rc 2, .word, [.write]⟩ t ∧
        t.mem.read32 s.cfg.endian (s.physical .write (eaScaled s rb rc 2)).toNat = s.reg ra)

/-- R220 to R222: the R+Imm stores. -/
def Obligations.ImmediateStores : Prop :=
  ∀ (s : State) (ra rb : RegNo) (s10 : BitVec 10),
    (checkAccess s ⟨eaImm s rb s10 0, .byte, [.write]⟩ = .ok →
      Completes (exec (.sd8 ra rb s10) s) fun t => OnlyStore s ⟨eaImm s rb s10 0, .byte, [.write]⟩ t ∧
        t.mem.read (s.physical .write (eaImm s rb s10 0)).toNat = (s.reg ra).extractLsb' 0 8) ∧
    (checkAccess s ⟨eaImm s rb s10 1, .half, [.write]⟩ = .ok →
      Completes (exec (.sd16 ra rb s10) s) fun t => OnlyStore s ⟨eaImm s rb s10 1, .half, [.write]⟩ t ∧
        t.mem.read16 s.cfg.endian (s.physical .write (eaImm s rb s10 1)).toNat = (s.reg ra).extractLsb' 0 16) ∧
    (checkAccess s ⟨eaImm s rb s10 2, .word, [.write]⟩ = .ok →
      Completes (exec (.sd32 ra rb s10) s) fun t => OnlyStore s ⟨eaImm s rb s10 2, .word, [.write]⟩ t ∧
        t.mem.read32 s.cfg.endian (s.physical .write (eaImm s rb s10 2)).toNat = s.reg ra)

/-! ### Miscellaneous (48_misc.md) -/

/-- R231, R232: the conditional moves; when the condition fails only `pc` changes. -/
def Obligations.ConditionalMoves : Prop :=
  ∀ (s : State) (ra rb rc : RegNo),
    (s.reg rb = 0#32 → Completes (exec (.mvz ra rb rc) s) (OnlyReg s ra (s.reg rc)) ∧
      Completes (exec (.mvnz ra rb rc) s) (OnlyPc s (s.pc + 4#32))) ∧
    (s.reg rb ≠ 0#32 → Completes (exec (.mvnz ra rb rc) s) (OnlyReg s ra (s.reg rc)) ∧
      Completes (exec (.mvz ra rb rc) s) (OnlyPc s (s.pc + 4#32)))

/-- R233: CSB counts the bits below bit 31 that equal it, up to the first that does not: 0 to 31. -/
def Obligations.CsbResult : Prop :=
  ∀ (s : State) (ra rb : RegNo), ∃ n, n ≤ 31 ∧
    Completes (exec (.csb ra rb) s) (OnlyReg s ra (BitVec.ofNat 32 n)) ∧
    (∀ k, 31 - n ≤ k → k ≤ 31 → (s.reg rb).getLsbD k = (s.reg rb).getLsbD 31) ∧
    (n < 31 → (s.reg rb).getLsbD (30 - n) ≠ (s.reg rb).getLsbD 31)

/-- R234: BREV puts byte k where byte 3 - k was; applied twice it restores the value. -/
def Obligations.BrevResult : Prop :=
  ∀ (s : State) (ra rb : RegNo), ∃ v,
    Completes (exec (.brev ra rb) s) (OnlyReg s ra v) ∧
    (∀ k, k < 4 → v.extractLsb' (8 * k) 8 = (s.reg rb).extractLsb' (8 * (3 - k)) 8) ∧
    byteReverse v = s.reg rb

/-- R235: SWAP exchanges the register and the word; the address and the stored value use the register's old value. -/
def Obligations.SwapResult : Prop :=
  ∀ (s : State) (ra rb : RegNo) (s10 : BitVec 10),
    checkAccess s ⟨eaImm s rb s10 2, .word, [.read, .write]⟩ = .ok →
    Completes (exec (.swap ra rb s10) s) fun t =>
      t.pc = s.pc + 4#32 ∧ setsReg s ra (s.wordAt (eaImm s rb s10 2)) t ∧
      t.mem.read32 s.cfg.endian (s.physical .write (eaImm s rb s10 2)).toNat = s.reg ra ∧
      keepsMemoryOutside s ⟨eaImm s rb s10 2, .word, [.read, .write]⟩ t ∧ keepsControl s t ∧ sendsNothing s t ∧
      keepsRest s t

/-! ### System control (49_system.md) -/

/-- R241: CLD by the platform's answer: a value, a value nothing is known of, ILLINS, no answer (D19); and a register number
with bit 9 set. -/
def Obligations.CldResult : Prop :=
  ∀ (s : State) (ra : RegNo) (id : BitVec 3) (s10 : BitVec 10),
    (s10.msb = true → exec (.cld ra id s10) s = .refused .moduleRegisterNumber) ∧
    (s10.msb = false →
      (∀ v, moduleRead s.cfg id (s10.setWidth 9) s.sr.sm = some (.holds v) →
        Completes (exec (.cld ra id s10) s) fun t => t.pc = s.pc + 4#32 ∧ setsReg s ra v t ∧ keepsControl s t ∧
          keepsMemory s t ∧ t.moduleOut = .read id (s10.setWidth 9) :: s.moduleOut ∧ keepsRest s t) ∧
      (moduleRead s.cfg id (s10.setWidth 9) s.sr.sm = some .varies →
        Completes (exec (.cld ra id s10) s) fun t => t.pc = s.pc + 4#32 ∧ (∃ v, setsReg s ra v t) ∧ keepsControl s t ∧
          keepsMemory s t ∧ t.moduleOut = .read id (s10.setWidth 9) :: s.moduleOut ∧ t.power = s.power ∧
          t.inputs = s.inputs ∧ t.cfg = s.cfg) ∧
      (moduleRead s.cfg id (s10.setWidth 9) s.sr.sm = some .illins → vectorReadable s 0x04#32 →
        Completes (exec (.cld ra id s10) s) (EntersNonDebug s 0x04#32 s.pc)) ∧
      (moduleRead s.cfg id (s10.setWidth 9) s.sr.sm = none →
        exec (.cld ra id s10) s = .refused .moduleAccessUnknown))

/-- R242: CST by the platform's answer (D19); and a register number with bit 9 set. -/
def Obligations.CstResult : Prop :=
  ∀ (s : State) (ra : RegNo) (id : BitVec 3) (s10 : BitVec 10),
    (s10.msb = true → exec (.cst ra id s10) s = .refused .moduleRegisterNumber) ∧
    (s10.msb = false →
      (moduleWrite s.cfg id (s10.setWidth 9) (s.reg ra) s.sr.sm = some .accepted →
        Completes (exec (.cst ra id s10) s) (OnlySends s (.write id (s10.setWidth 9) (s.reg ra)))) ∧
      (moduleWrite s.cfg id (s10.setWidth 9) (s.reg ra) s.sr.sm = some .illins → vectorReadable s 0x04#32 →
        Completes (exec (.cst ra id s10) s) (EntersNonDebug s 0x04#32 s.pc)) ∧
      (moduleWrite s.cfg id (s10.setWidth 9) (s.reg ra) s.sr.sm = none →
        exec (.cst ra id s10) s = .refused .moduleAccessUnknown))

/-- R32: the fields of SR by bit, the reserved bits read as 0, what WCR writes of it and that SM is not among it. -/
def Obligations.StatusRegister : Prop :=
  (∀ r : StatusReg, (∀ k, 7 ≤ k → r.toWord.getLsbD k = false) ∧ r.toWord.extractLsb' 4 3 = r.vb ∧
    r.toWord.getLsbD 3 = r.sm ∧ r.toWord.getLsbD 2 = r.ds ∧ r.toWord.getLsbD 1 = r.de ∧ r.toWord.getLsbD 0 = r.ie) ∧
  (∀ (s : State) (ra : RegNo), s.sr.sm = true →
    Completes (exec (.rcr ra 0#5) s) (OnlyReg s ra s.sr.toWord) ∧
    Completes (exec (.wcr ra 0#5) s) fun t =>
      t.sr.toWord = (s.sr.toWord &&& 0x08#32) ||| (s.reg ra &&& 0x77#32)) ∧
  State.reset.sr.toWord = 0x00000008#32

/-- R243: RCR in supervisor mode reads the control register the index names; another index stops (the spec's decision,
D18). -/
def Obligations.RcrResult : Prop :=
  ∀ (s : State) (ra : RegNo), s.sr.sm = true →
    Completes (exec (.rcr ra 0#5) s) (OnlyReg s ra s.sr.toWord) ∧
    Completes (exec (.rcr ra 1#5) s) (OnlyReg s ra s.esr) ∧
    Completes (exec (.rcr ra 2#5) s) (OnlyReg s ra s.epc) ∧
    Completes (exec (.rcr ra 5#5) s) (OnlyReg s ra s.dsr) ∧
    Completes (exec (.rcr ra 6#5) s) (OnlyReg s ra s.dpc) ∧
    ∀ cr : BitVec 5, cr ∉ [0#5, 1#5, 2#5, 5#5, 6#5] → exec (.rcr ra cr) s = .refused .controlRegisterIndex

/-- R244: WCR in supervisor mode writes the control register the index names, SR but for SM and the reserved bits; another
index stops (the spec's decision, D18). -/
def Obligations.WcrResult : Prop :=
  ∀ (s : State) (ra : RegNo), s.sr.sm = true →
    Completes (exec (.wcr ra 0#5) s) (OnlyControl s ⟨(s.reg ra).extractLsb' 4 3, s.sr.sm, (s.reg ra).getLsbD 2,
      (s.reg ra).getLsbD 1, (s.reg ra).getLsbD 0⟩ s.esr s.epc s.dsr s.dpc) ∧
    Completes (exec (.wcr ra 1#5) s) (OnlyControl s s.sr (s.reg ra) s.epc s.dsr s.dpc) ∧
    Completes (exec (.wcr ra 2#5) s) (OnlyControl s s.sr s.esr (s.reg ra) s.dsr s.dpc) ∧
    Completes (exec (.wcr ra 5#5) s) (OnlyControl s s.sr s.esr s.epc (s.reg ra) s.dpc) ∧
    Completes (exec (.wcr ra 6#5) s) (OnlyControl s s.sr s.esr s.epc s.dsr (s.reg ra)) ∧
    ∀ cr : BitVec 5, cr ∉ [0#5, 1#5, 2#5, 5#5, 6#5] → exec (.wcr ra cr) s = .refused .controlRegisterIndex

/-- R245: TRAP in either mode writes its sign-extended immediate, saves SR and the following address, and enters through
offset 0x14; ESR has the SR of before. -/
def Obligations.TrapResult : Prop :=
  ∀ (s : State) (ra : RegNo) (s10 : BitVec 10), vectorReadable s 0x14#32 →
    Completes (exec (.trap ra s10) s) fun t =>
      setsReg s ra (BitVec.ofInt 32 s10.toInt) t ∧ t.esr = s.sr.toWord ∧ t.epc = s.pc + 4#32 ∧
      t.sr = ⟨s.sr.vb, true, false, s.sr.de, false⟩ ∧ t.dsr = s.dsr ∧ t.dpc = s.dpc ∧ t.pc = vectorWord s 0x14#32 ∧
      keepsMemory s t ∧ sendsNothing s t ∧ keepsRest s t

/-- R247: RTE in supervisor mode loads all of SR and `pc` from DSR and DPC if SR.DS = 1, else from ESR and EPC. -/
def Obligations.RteResult : Prop :=
  ∀ s : State, s.sr.sm = true → ∃ v p, (s.sr.ds = true → v = s.dsr ∧ p = s.dpc) ∧ (s.sr.ds = false → v = s.esr ∧ p = s.epc) ∧
    Completes (exec .rte s) fun t =>
      t.pc = p ∧ t.sr = ⟨v.extractLsb' 4 3, v.getLsbD 3, v.getLsbD 2, v.getLsbD 1, v.getLsbD 0⟩ ∧ t.esr = s.esr ∧
      t.epc = s.epc ∧ t.dsr = s.dsr ∧ t.dpc = s.dpc ∧ keepsRegs s t ∧ keepsMemory s t ∧ sendsNothing s t ∧ keepsRest s t

/-- R248: SLEEP in supervisor mode completes at once and, in sleep or standby mode, leaves the CPU waiting; pause mode only
where the implementation supports it. -/
def Obligations.SleepResult : Prop :=
  ∀ s : State, s.sr.sm = true →
    (s.cfg.sleepMode = .pause → s.cfg.pauseSupported = true → Completes (exec .sleep s) (OnlyPc s (s.pc + 4#32))) ∧
    (s.cfg.sleepMode = .pause → s.cfg.pauseSupported = false → exec .sleep s = .refused .pauseUnsupported) ∧
    (s.cfg.sleepMode ≠ .pause → Completes (exec .sleep s) fun t =>
      t.power = (if s.cfg.sleepMode = .sleep then .sleep else .standby) ∧ t.pc = s.pc + 4#32 ∧ keepsRegs s t ∧
      keepsControl s t ∧ keepsMemory s t ∧ sendsNothing s t ∧ t.inputs = s.inputs ∧ t.freeNext = s.freeNext ∧
      t.cfg = s.cfg)

/-- R249, R250: ITLB and DTLB in supervisor mode send the command and the virtual address in Rb; without an answer of the
platform they stop (the spec's decision, D20). That the platform may answer ILLINS in supervisor mode too, and that a TLB
command may be one that publishes, are the model's choices (DESIGN CHOICE, log 22). -/
def Obligations.TlbCommands : Prop :=
  ∀ (s : State) (cmd : BitVec 4) (rb : RegNo), s.sr.sm = true →
    (∀ p, unitOp s.cfg .itlb cmd (s.reg rb) true = some (.done p) →
      Completes (exec (.itlb cmd rb) s) (OnlyCommands s (.op .itlb cmd (s.reg rb)) p)) ∧
    (∀ p, unitOp s.cfg .dtlb cmd (s.reg rb) true = some (.done p) →
      Completes (exec (.dtlb cmd rb) s) (OnlyCommands s (.op .dtlb cmd (s.reg rb)) p)) ∧
    (unitOp s.cfg .itlb cmd (s.reg rb) true = some .illins → vectorReadable s 0x04#32 →
      Completes (exec (.itlb cmd rb) s) (EntersNonDebug s 0x04#32 s.pc)) ∧
    (unitOp s.cfg .dtlb cmd (s.reg rb) true = some .illins → vectorReadable s 0x04#32 →
      Completes (exec (.dtlb cmd rb) s) (EntersNonDebug s 0x04#32 s.pc)) ∧
    (unitOp s.cfg .itlb cmd (s.reg rb) true = none → exec (.itlb cmd rb) s = .refused .unitCommandUnknown) ∧
    (unitOp s.cfg .dtlb cmd (s.reg rb) true = none → exec (.dtlb cmd rb) s = .refused .unitCommandUnknown)

/-- R251, R252: ICACHE and DCACHE in either mode send the command and the scaled address; a command the platform calls
publishing makes earlier stores visible to fetch (R81); the platform may answer ILLINS, to a privileged CMD in user mode, or
nothing (a stop, D20). That it may answer ILLINS in supervisor mode too is the model's choice (DESIGN CHOICE, log 22). -/
def Obligations.CacheCommands : Prop :=
  ∀ (s : State) (cmd : BitVec 4) (rb : RegNo) (s10 : BitVec 10),
    (∀ p, unitOp s.cfg .icache cmd (eaImm s rb s10 2) s.sr.sm = some (.done p) →
      Completes (exec (.icache cmd rb s10) s) (OnlyCommands s (.op .icache cmd (eaImm s rb s10 2)) p)) ∧
    (∀ p, unitOp s.cfg .dcache cmd (eaImm s rb s10 2) s.sr.sm = some (.done p) →
      Completes (exec (.dcache cmd rb s10) s) (OnlyCommands s (.op .dcache cmd (eaImm s rb s10 2)) p)) ∧
    (unitOp s.cfg .icache cmd (eaImm s rb s10 2) s.sr.sm = some .illins → vectorReadable s 0x04#32 →
      Completes (exec (.icache cmd rb s10) s) (EntersNonDebug s 0x04#32 s.pc)) ∧
    (unitOp s.cfg .dcache cmd (eaImm s rb s10 2) s.sr.sm = some .illins → vectorReadable s 0x04#32 →
      Completes (exec (.dcache cmd rb s10) s) (EntersNonDebug s 0x04#32 s.pc)) ∧
    (unitOp s.cfg .icache cmd (eaImm s rb s10 2) s.sr.sm = none →
      exec (.icache cmd rb s10) s = .refused .unitCommandUnknown) ∧
    (unitOp s.cfg .dcache cmd (eaImm s rb s10 2) s.sr.sm = none →
      exec (.dcache cmd rb s10) s = .refused .unitCommandUnknown)
end

