-- ==== Sys2Proof/Laws/Memory.lean ====
section
/-! SUPPORT. The laws of memory: a read after a write, and the canonical form. -/

namespace Sys2Proof.Machine

theorem read_erase_same (m : Memory) (x : Nat) : (m.erase x).read x = Memory.unlisted := by
  induction m with
  | nil => rfl
  | cons c rest ih =>
    obtain ⟨a, b⟩ := c
    by_cases h : a = x
    · simpa [Memory.erase, h] using ih
    · simpa [Memory.erase, h, Memory.read] using ih

theorem read_erase_other (m : Memory) {x y : Nat} (h : y ≠ x) : (m.erase x).read y = m.read y := by
  induction m with
  | nil => rfl
  | cons c rest ih =>
    obtain ⟨a, b⟩ := c
    by_cases hx : a = x
    · subst hx
      simpa [Memory.erase, Memory.read, Ne.symm h] using ih
    · by_cases hy : a = y
      · simp [Memory.erase, Memory.read, hy, h]
      · simpa [Memory.erase, hx, Memory.read, hy] using ih

theorem read_place_same (m : Memory) (x : Nat) (v : Byte) (h : ∀ c ∈ m, c.1 ≠ x) : (m.place x v).read x = v := by
  induction m with
  | nil => simp [Memory.place, Memory.read]
  | cons c rest ih =>
    obtain ⟨a, b⟩ := c
    have ha : a ≠ x := h (a, b) (by simp)
    by_cases hlt : x < a
    · simp [Memory.place, Memory.read, hlt]
    · simpa [Memory.place, Memory.read, hlt, ha] using ih fun c hc => h c (by simp [hc])

theorem read_place_other (m : Memory) {x y : Nat} (v : Byte) (h : y ≠ x) : (m.place x v).read y = m.read y := by
  induction m with
  | nil => simp [Memory.place, Memory.read, Ne.symm h]
  | cons c rest ih =>
    obtain ⟨a, b⟩ := c
    simp only [Memory.place]
    split
    · simp [Memory.read, Ne.symm h]
    · simp [Memory.read, ih]

/-- A byte read where it was written is the byte written. -/
@[simp] theorem read_write_same (m : Memory) (x : Nat) (v : Byte) : (m.write x v).read x = v := by
  unfold Memory.write
  split
  · next h => rw [read_erase_same, h]
  · exact read_place_same _ _ _ fun c hc => by simpa [Memory.erase] using (List.mem_filter.mp hc).2

/-- A write leaves every other byte alone. -/
theorem read_write_other (m : Memory) {x y : Nat} (v : Byte) (h : y ≠ x) : (m.write x v).read y = m.read y := by
  unfold Memory.write
  split
  · exact read_erase_other m h
  · rw [read_place_other _ _ h, read_erase_other m h]

theorem canonicalFrom_mono {lo lo' : Nat} (m : Memory) (h : lo' ≤ lo) (hm : Memory.canonicalFrom lo m) :
    Memory.canonicalFrom lo' m := by
  cases m with
  | nil => rfl
  | cons c rest =>
    simp only [Memory.canonicalFrom, Bool.and_eq_true, decide_eq_true_eq] at hm ⊢
    exact ⟨⟨⟨by omega, hm.1.1.2⟩, hm.1.2⟩, hm.2⟩

theorem canonicalFrom_erase (m : Memory) (lo x : Nat) (hm : Memory.canonicalFrom lo m) :
    Memory.canonicalFrom lo (m.erase x) := by
  induction m generalizing lo with
  | nil => exact hm
  | cons c rest ih =>
    obtain ⟨a, b⟩ := c
    simp only [Memory.canonicalFrom, Bool.and_eq_true, decide_eq_true_eq] at hm
    by_cases hx : a = x
    · subst hx
      simpa [Memory.erase] using canonicalFrom_mono _ (by omega) (ih (a + 1) hm.2)
    · have hk : Memory.erase ((a, b) :: rest) x = (a, b) :: Memory.erase rest x := by simp [Memory.erase, hx]
      simp only [hk, Memory.canonicalFrom, Bool.and_eq_true, decide_eq_true_eq]
      exact ⟨hm.1, ih (a + 1) hm.2⟩

theorem canonicalFrom_place (m : Memory) (lo x : Nat) (v : Byte) (hm : Memory.canonicalFrom lo m) (hlo : lo ≤ x)
    (hx : x < 2 ^ 32) (hv : v ≠ Memory.unlisted) (hne : ∀ c ∈ m, c.1 ≠ x) :
    Memory.canonicalFrom lo (m.place x v) := by
  induction m generalizing lo with
  | nil => simp [Memory.place, Memory.canonicalFrom, hlo, hv]; omega
  | cons c rest ih =>
    obtain ⟨a, b⟩ := c
    simp only [Memory.canonicalFrom, Bool.and_eq_true, decide_eq_true_eq] at hm
    have ha : a ≠ x := hne (a, b) (by simp)
    by_cases hlt : x < a
    · simp only [Memory.place, hlt, if_true, Memory.canonicalFrom, Bool.and_eq_true, decide_eq_true_eq]
      exact ⟨⟨⟨hlo, hx⟩, hv⟩, ⟨⟨by omega, hm.1.1.2⟩, hm.1.2⟩, hm.2⟩
    · simp only [Memory.place, hlt, if_false, Memory.canonicalFrom, Bool.and_eq_true, decide_eq_true_eq]
      exact ⟨hm.1, ih (a + 1) hm.2 (by omega) fun c hc => hne c (by simp [hc])⟩

/-- A write keeps the canonical form. -/
theorem wf_write (m : Memory) (x : Nat) (v : Byte) (hx : x < 2 ^ 32) (hm : m.wf) : (m.write x v).wf := by
  unfold Memory.write
  split
  · exact canonicalFrom_erase m 0 x hm
  · next h =>
    exact canonicalFrom_place _ 0 x v (canonicalFrom_erase m 0 x hm) (by omega) hx h fun c hc => by
      simpa [Memory.erase] using (List.mem_filter.mp hc).2

/-- A store at an aligned address keeps the canonical form. -/
theorem wf_store (e : Endian) (m : Memory) (a v : Word) (sz : Size) (ha : a.toNat % sz.bytes = 0) (hm : m.wf) :
    (m.store e a v sz).wf := by
  have h := a.isLt
  cases sz <;> simp only [Size.bytes] at ha
  · exact wf_write _ _ _ h hm
  · cases e <;> exact wf_write _ _ _ (by omega) (wf_write _ _ _ h hm)
  · cases e <;>
      exact wf_write _ _ _ (by omega) (wf_write _ _ _ (by omega) (wf_write _ _ _ (by omega) (wf_write _ _ _ h hm)))

/-- A store leaves every byte outside the access alone. -/
theorem read_store_other (e : Endian) (m : Memory) (a v : Word) (sz : Size) (x : Nat)
    (h : x < a.toNat ∨ a.toNat + sz.bytes ≤ x) : (m.store e a v sz).read x = m.read x := by
  cases sz <;> simp only [Size.bytes] at h
  · exact read_write_other _ _ (by omega)
  · cases e <;> simp only [Memory.store, Memory.write16] <;>
      rw [read_write_other _ _ (by omega), read_write_other _ _ (by omega)]
  · cases e <;> simp only [Memory.store, Memory.write32] <;>
      rw [read_write_other _ _ (by omega), read_write_other _ _ (by omega), read_write_other _ _ (by omega),
        read_write_other _ _ (by omega)]

/-- A concatenation as a number. -/
theorem append_toNat {n m : Nat} (x : BitVec n) (y : BitVec m) : (x ++ y).toNat = x.toNat * 2 ^ m + y.toNat := by
  rw [BitVec.toNat_append, ← Nat.shiftLeft_add_eq_or_of_lt y.isLt, Nat.shiftLeft_eq]

/-- The low part of a concatenation. -/
theorem append_low {n m : Nat} (x : BitVec n) (y : BitVec m) : (x ++ y).extractLsb' 0 m = y := by
  ext k hk; simp [BitVec.getLsbD_append, hk]

/-- A field of the high part of a concatenation. -/
theorem append_high {n m : Nat} (x : BitVec n) (y : BitVec m) (start len : Nat) :
    (x ++ y).extractLsb' (m + start) len = x.extractLsb' start len := by
  ext k hk
  simp only [BitVec.getElem_extractLsb', BitVec.getLsbD_append]
  rw [if_neg (by omega)]
  congr 1; omega

/-- Two adjacent fields side by side are one field. -/
theorem extract_append {n : Nat} (v : BitVec n) (lo w1 w2 : Nat) :
    v.extractLsb' (lo + w2) w1 ++ v.extractLsb' lo w2 = v.extractLsb' lo (w1 + w2) := by
  ext k hk
  simp only [← BitVec.getLsbD_eq_getElem, BitVec.getLsbD_append, BitVec.getLsbD_extractLsb']
  split
  · next h => simp [h, hk]
  · next h => rw [show lo + w2 + (k - w2) = lo + k by omega]; simp [hk]; omega

/-- The four bytes of a word put back together. -/
theorem bytes_of_word (v : Word) :
    v.extractLsb' 24 8 ++ v.extractLsb' 16 8 ++ v.extractLsb' 8 8 ++ v.extractLsb' 0 8 = v := by
  rw [extract_append v 16 8 8, extract_append v 8 (8 + 8) 8, extract_append v 0 (8 + 8 + 8) 8]
  simp

/-- The two bytes of a halfword put back together. -/
theorem bytes_of_half (v : BitVec 16) : v.extractLsb' 8 8 ++ v.extractLsb' 0 8 = v := by
  rw [extract_append v 0 8 8]; simp

/-- A word read where it was stored, in the same byte order. -/
theorem read32_write32 (e : Endian) (m : Memory) (a : Nat) (v : Word) : (m.write32 e a v).read32 e a = v := by
  have h (x y : Nat) (hxy : y ≠ x) (m : Memory) (b : Byte) := read_write_other m b hxy
  cases e <;>
    simp only [Memory.read32, Memory.write32, read_write_same, h (a + 1) a (by omega),
      h (a + 2) a (by omega), h (a + 3) a (by omega), h (a + 2) (a + 1) (by omega), h (a + 3) (a + 1) (by omega),
      h (a + 3) (a + 2) (by omega)] <;>
    exact bytes_of_word v

/-- A halfword read where it was stored, in the same byte order. -/
theorem read16_write16 (e : Endian) (m : Memory) (a : Nat) (v : BitVec 16) : (m.write16 e a v).read16 e a = v := by
  have h (x y : Nat) (hxy : y ≠ x) (m : Memory) (b : Byte) := read_write_other m b hxy
  cases e <;>
    simp only [Memory.read16, Memory.write16, read_write_same, h (a + 1) a (by omega)] <;>
    exact bytes_of_half v

theorem mem_insertAddress (l : List Nat) (x y : Nat) : y ∈ insertAddress l x ↔ y = x ∨ y ∈ l := by
  induction l with
  | nil => simp [insertAddress]
  | cons a rest ih =>
    simp only [insertAddress]
    split
    · simp
    · split
      · next h => subst h; simp
      · simp only [List.mem_cons, ih]; tauto

/-- The addresses after marking are those of the access and those before. -/
theorem mem_markBytes (l : List Nat) (a n y : Nat) : y ∈ markBytes l a n ↔ (a ≤ y ∧ y < a + n) ∨ y ∈ l := by
  induction n with
  | zero => simp [markBytes]
  | succ n ih =>
    rw [markBytes, mem_insertAddress, ih]
    constructor
    · rintro (h | h | h)
      · left; omega
      · left; omega
      · exact .inr h
    · rintro (h | h)
      · rcases Nat.lt_or_ge y (a + n) with h' | h'
        · exact .inr (.inl ⟨h.1, h'⟩)
        · exact .inl (by omega)
      · exact .inr (.inr h)

end Sys2Proof.Machine
end

