-- ==== Sys2Proof/Laws/Encoding.lean ====
section
/-! SUPPORT. The fields of the four word layouts: each slot of a built word reads as what was put there. -/

namespace Sys2Proof

open Machine (append_low append_high)

/-- The whole of a bit vector as a field. -/
theorem extract_all {n : Nat} (v : BitVec n) : v.extractLsb' 0 n = v := by simp

/-- A field of the low part of a concatenation. -/
theorem append_in_low {n m : Nat} (x : BitVec n) (y : BitVec m) (start len : Nat) (h : start + len ≤ m) :
    (x ++ y).extractLsb' start len = y.extractLsb' start len := by
  ext k hk
  simp only [BitVec.getElem_extractLsb', BitVec.getLsbD_append]
  rw [if_pos (by omega)]

@[simp] theorem wordSix_op1Of (op1 : BitVec 6) (a : BitVec 5) (b : BitVec 5) (op2 : BitVec 6) (h : BitVec 5) (l : BitVec 5) :
    op1Of (wordSix op1 a b op2 h l) = op1 :=
  (append_high (op1 ++ a ++ b ++ op2 ++ h) l 21 6).trans <|
    (append_high (op1 ++ a ++ b ++ op2) h 16 6).trans <|
    (append_high (op1 ++ a ++ b) op2 10 6).trans <|
    (append_high (op1 ++ a) b 5 6).trans <|
    (append_high (op1) a 0 6).trans <| extract_all _
@[simp] theorem wordSix_slotA (op1 : BitVec 6) (a : BitVec 5) (b : BitVec 5) (op2 : BitVec 6) (h : BitVec 5) (l : BitVec 5) :
    slotA (wordSix op1 a b op2 h l) = a :=
  (append_high (op1 ++ a ++ b ++ op2 ++ h) l 16 5).trans <|
    (append_high (op1 ++ a ++ b ++ op2) h 11 5).trans <|
    (append_high (op1 ++ a ++ b) op2 5 5).trans <|
    (append_high (op1 ++ a) b 0 5).trans <| append_low (op1) a
@[simp] theorem wordSix_slotB (op1 : BitVec 6) (a : BitVec 5) (b : BitVec 5) (op2 : BitVec 6) (h : BitVec 5) (l : BitVec 5) :
    slotB (wordSix op1 a b op2 h l) = b :=
  (append_high (op1 ++ a ++ b ++ op2 ++ h) l 11 5).trans <|
    (append_high (op1 ++ a ++ b ++ op2) h 6 5).trans <|
    (append_high (op1 ++ a ++ b) op2 0 5).trans <| append_low (op1 ++ a) b
@[simp] theorem wordSix_op2Of (op1 : BitVec 6) (a : BitVec 5) (b : BitVec 5) (op2 : BitVec 6) (h : BitVec 5) (l : BitVec 5) :
    op2Of (wordSix op1 a b op2 h l) = op2 :=
  (append_high (op1 ++ a ++ b ++ op2 ++ h) l 5 6).trans <|
    (append_high (op1 ++ a ++ b ++ op2) h 0 6).trans <| append_low (op1 ++ a ++ b) op2
@[simp] theorem wordSix_slotH (op1 : BitVec 6) (a : BitVec 5) (b : BitVec 5) (op2 : BitVec 6) (h : BitVec 5) (l : BitVec 5) :
    slotH (wordSix op1 a b op2 h l) = h :=
  (append_high (op1 ++ a ++ b ++ op2 ++ h) l 0 5).trans <| append_low (op1 ++ a ++ b ++ op2) h
@[simp] theorem wordSix_slotL (op1 : BitVec 6) (a : BitVec 5) (b : BitVec 5) (op2 : BitVec 6) (h : BitVec 5) (l : BitVec 5) :
    slotL (wordSix op1 a b op2 h l) = l :=
  append_low (op1 ++ a ++ b ++ op2 ++ h) l

@[simp] theorem wordI10_op1Of (op1 : BitVec 6) (a : BitVec 5) (b : BitVec 5) (op2 : BitVec 6) (i : BitVec 10) :
    op1Of (wordI10 op1 a b op2 i) = op1 :=
  (append_high (op1 ++ a ++ b ++ op2) i 16 6).trans <|
    (append_high (op1 ++ a ++ b) op2 10 6).trans <|
    (append_high (op1 ++ a) b 5 6).trans <|
    (append_high (op1) a 0 6).trans <| extract_all _
@[simp] theorem wordI10_slotA (op1 : BitVec 6) (a : BitVec 5) (b : BitVec 5) (op2 : BitVec 6) (i : BitVec 10) :
    slotA (wordI10 op1 a b op2 i) = a :=
  (append_high (op1 ++ a ++ b ++ op2) i 11 5).trans <|
    (append_high (op1 ++ a ++ b) op2 5 5).trans <|
    (append_high (op1 ++ a) b 0 5).trans <| append_low (op1) a
@[simp] theorem wordI10_slotB (op1 : BitVec 6) (a : BitVec 5) (b : BitVec 5) (op2 : BitVec 6) (i : BitVec 10) :
    slotB (wordI10 op1 a b op2 i) = b :=
  (append_high (op1 ++ a ++ b ++ op2) i 6 5).trans <|
    (append_high (op1 ++ a ++ b) op2 0 5).trans <| append_low (op1 ++ a) b
@[simp] theorem wordI10_op2Of (op1 : BitVec 6) (a : BitVec 5) (b : BitVec 5) (op2 : BitVec 6) (i : BitVec 10) :
    op2Of (wordI10 op1 a b op2 i) = op2 :=
  (append_high (op1 ++ a ++ b ++ op2) i 0 6).trans <| append_low (op1 ++ a ++ b) op2
@[simp] theorem wordI10_imm10 (op1 : BitVec 6) (a : BitVec 5) (b : BitVec 5) (op2 : BitVec 6) (i : BitVec 10) :
    imm10 (wordI10 op1 a b op2 i) = i :=
  append_low (op1 ++ a ++ b ++ op2) i

@[simp] theorem wordI16_op1Of (op1 : BitVec 6) (a : BitVec 5) (b : BitVec 5) (i : BitVec 16) :
    op1Of (wordI16 op1 a b i) = op1 :=
  (append_high (op1 ++ a ++ b) i 10 6).trans <|
    (append_high (op1 ++ a) b 5 6).trans <|
    (append_high (op1) a 0 6).trans <| extract_all _
@[simp] theorem wordI16_slotA (op1 : BitVec 6) (a : BitVec 5) (b : BitVec 5) (i : BitVec 16) :
    slotA (wordI16 op1 a b i) = a :=
  (append_high (op1 ++ a ++ b) i 5 5).trans <|
    (append_high (op1 ++ a) b 0 5).trans <| append_low (op1) a
@[simp] theorem wordI16_slotB (op1 : BitVec 6) (a : BitVec 5) (b : BitVec 5) (i : BitVec 16) :
    slotB (wordI16 op1 a b i) = b :=
  (append_high (op1 ++ a ++ b) i 0 5).trans <| append_low (op1 ++ a) b
@[simp] theorem wordI16_imm16 (op1 : BitVec 6) (a : BitVec 5) (b : BitVec 5) (i : BitVec 16) :
    imm16 (wordI16 op1 a b i) = i :=
  append_low (op1 ++ a ++ b) i

@[simp] theorem wordI21_op1Of (op1 : BitVec 6) (a : BitVec 5) (i : BitVec 21) :
    op1Of (wordI21 op1 a i) = op1 :=
  (append_high (op1 ++ a) i 5 6).trans <|
    (append_high (op1) a 0 6).trans <| extract_all _
@[simp] theorem wordI21_slotA (op1 : BitVec 6) (a : BitVec 5) (i : BitVec 21) :
    slotA (wordI21 op1 a i) = a :=
  (append_high (op1 ++ a) i 0 5).trans <| append_low (op1) a
@[simp] theorem wordI21_imm21 (op1 : BitVec 6) (a : BitVec 5) (i : BitVec 21) :
    imm21 (wordI21 op1 a i) = i :=
  append_low (op1 ++ a) i

@[simp] theorem wordSix_cmdOf (op1 : BitVec 6) (b : BitVec 5) (op2 : BitVec 6) (h : BitVec 5) (l : BitVec 5) (cmd : BitVec 4) :
    cmdOf (wordSix op1 (0b0#1 ++ cmd) b op2 h l) = cmd :=
  (append_high (op1 ++ (0b0#1 ++ cmd) ++ b ++ op2 ++ h) l 16 4).trans <|
    (append_high (op1 ++ (0b0#1 ++ cmd) ++ b ++ op2) h 11 4).trans <|
    (append_high (op1 ++ (0b0#1 ++ cmd) ++ b) op2 5 4).trans <|
    (append_high (op1 ++ (0b0#1 ++ cmd)) b 0 4).trans <|
    (append_in_low op1 (0b0#1 ++ cmd) 0 4 (by decide)).trans (append_low 0b0#1 cmd)
@[simp] theorem wordSix_bit25 (op1 : BitVec 6) (b : BitVec 5) (op2 : BitVec 6) (h : BitVec 5) (l : BitVec 5) (cmd : BitVec 4) :
    (wordSix op1 (0b0#1 ++ cmd) b op2 h l).extractLsb' 25 1 = 0#1 :=
  (append_high (op1 ++ (0b0#1 ++ cmd) ++ b ++ op2 ++ h) l 20 1).trans <|
    (append_high (op1 ++ (0b0#1 ++ cmd) ++ b ++ op2) h 15 1).trans <|
    (append_high (op1 ++ (0b0#1 ++ cmd) ++ b) op2 9 1).trans <|
    (append_high (op1 ++ (0b0#1 ++ cmd)) b 4 1).trans <|
    (append_in_low op1 (0b0#1 ++ cmd) 4 1 (by decide)).trans <| (append_high 0b0#1 cmd 0 1).trans (extract_all _)
@[simp] theorem wordI10_cmdOf (op1 : BitVec 6) (b : BitVec 5) (op2 : BitVec 6) (i : BitVec 10) (cmd : BitVec 4) :
    cmdOf (wordI10 op1 (0b0#1 ++ cmd) b op2 i) = cmd :=
  (append_high (op1 ++ (0b0#1 ++ cmd) ++ b ++ op2) i 11 4).trans <|
    (append_high (op1 ++ (0b0#1 ++ cmd) ++ b) op2 5 4).trans <|
    (append_high (op1 ++ (0b0#1 ++ cmd)) b 0 4).trans <|
    (append_in_low op1 (0b0#1 ++ cmd) 0 4 (by decide)).trans (append_low 0b0#1 cmd)
@[simp] theorem wordI10_bit25 (op1 : BitVec 6) (b : BitVec 5) (op2 : BitVec 6) (i : BitVec 10) (cmd : BitVec 4) :
    (wordI10 op1 (0b0#1 ++ cmd) b op2 i).extractLsb' 25 1 = 0#1 :=
  (append_high (op1 ++ (0b0#1 ++ cmd) ++ b ++ op2) i 15 1).trans <|
    (append_high (op1 ++ (0b0#1 ++ cmd) ++ b) op2 9 1).trans <|
    (append_high (op1 ++ (0b0#1 ++ cmd)) b 4 1).trans <|
    (append_in_low op1 (0b0#1 ++ cmd) 4 1 (by decide)).trans <| (append_high 0b0#1 cmd 0 1).trans (extract_all _)
@[simp] theorem wordI10_idOf (op1 : BitVec 6) (a : BitVec 5) (op2 : BitVec 6) (i : BitVec 10) (id : BitVec 3) :
    idOf (wordI10 op1 a (0b00#2 ++ id) op2 i) = id :=
  (append_high (op1 ++ a ++ (0b00#2 ++ id) ++ op2) i 6 3).trans <|
    (append_high (op1 ++ a ++ (0b00#2 ++ id)) op2 0 3).trans <|
    (append_in_low (op1 ++ a) (0b00#2 ++ id) 0 3 (by decide)).trans (append_low 0b00#2 id)
@[simp] theorem wordI10_bits20_19 (op1 : BitVec 6) (a : BitVec 5) (op2 : BitVec 6) (i : BitVec 10) (id : BitVec 3) :
    (wordI10 op1 a (0b00#2 ++ id) op2 i).extractLsb' 19 2 = 0#2 :=
  (append_high (op1 ++ a ++ (0b00#2 ++ id) ++ op2) i 9 2).trans <|
    (append_high (op1 ++ a ++ (0b00#2 ++ id)) op2 3 2).trans <|
    (append_in_low (op1 ++ a) (0b00#2 ++ id) 3 2 (by decide)).trans <| (append_high 0b00#2 id 0 2).trans (extract_all _)

end Sys2Proof
end

