-- ==== Sys2Proof/Laws/State.lean ====
section
/-! SUPPORT. One lemma per field per update of State, each true by rfl. -/

namespace Sys2Proof.Machine

@[simp] theorem withRegs_regs (s : State) (x : Vector Word 32) : (s.withRegs x).regs = x := rfl
@[simp] theorem withRegs_pc (s : State) (x : Vector Word 32) : (s.withRegs x).pc = s.pc := rfl
@[simp] theorem withRegs_sr (s : State) (x : Vector Word 32) : (s.withRegs x).sr = s.sr := rfl
@[simp] theorem withRegs_esr (s : State) (x : Vector Word 32) : (s.withRegs x).esr = s.esr := rfl
@[simp] theorem withRegs_epc (s : State) (x : Vector Word 32) : (s.withRegs x).epc = s.epc := rfl
@[simp] theorem withRegs_dsr (s : State) (x : Vector Word 32) : (s.withRegs x).dsr = s.dsr := rfl
@[simp] theorem withRegs_dpc (s : State) (x : Vector Word 32) : (s.withRegs x).dpc = s.dpc := rfl
@[simp] theorem withRegs_mem (s : State) (x : Vector Word 32) : (s.withRegs x).mem = s.mem := rfl
@[simp] theorem withRegs_stored (s : State) (x : Vector Word 32) : (s.withRegs x).stored = s.stored := rfl
@[simp] theorem withRegs_power (s : State) (x : Vector Word 32) : (s.withRegs x).power = s.power := rfl
@[simp] theorem withRegs_inputs (s : State) (x : Vector Word 32) : (s.withRegs x).inputs = s.inputs := rfl
@[simp] theorem withRegs_moduleOut (s : State) (x : Vector Word 32) : (s.withRegs x).moduleOut = s.moduleOut := rfl
@[simp] theorem withRegs_freeNext (s : State) (x : Vector Word 32) : (s.withRegs x).freeNext = s.freeNext := rfl
@[simp] theorem withRegs_cfg (s : State) (x : Vector Word 32) : (s.withRegs x).cfg = s.cfg := rfl

@[simp] theorem withPc_regs (s : State) (x : Word) : (s.withPc x).regs = s.regs := rfl
@[simp] theorem withPc_pc (s : State) (x : Word) : (s.withPc x).pc = x := rfl
@[simp] theorem withPc_sr (s : State) (x : Word) : (s.withPc x).sr = s.sr := rfl
@[simp] theorem withPc_esr (s : State) (x : Word) : (s.withPc x).esr = s.esr := rfl
@[simp] theorem withPc_epc (s : State) (x : Word) : (s.withPc x).epc = s.epc := rfl
@[simp] theorem withPc_dsr (s : State) (x : Word) : (s.withPc x).dsr = s.dsr := rfl
@[simp] theorem withPc_dpc (s : State) (x : Word) : (s.withPc x).dpc = s.dpc := rfl
@[simp] theorem withPc_mem (s : State) (x : Word) : (s.withPc x).mem = s.mem := rfl
@[simp] theorem withPc_stored (s : State) (x : Word) : (s.withPc x).stored = s.stored := rfl
@[simp] theorem withPc_power (s : State) (x : Word) : (s.withPc x).power = s.power := rfl
@[simp] theorem withPc_inputs (s : State) (x : Word) : (s.withPc x).inputs = s.inputs := rfl
@[simp] theorem withPc_moduleOut (s : State) (x : Word) : (s.withPc x).moduleOut = s.moduleOut := rfl
@[simp] theorem withPc_freeNext (s : State) (x : Word) : (s.withPc x).freeNext = s.freeNext := rfl
@[simp] theorem withPc_cfg (s : State) (x : Word) : (s.withPc x).cfg = s.cfg := rfl

@[simp] theorem withSr_regs (s : State) (x : StatusReg) : (s.withSr x).regs = s.regs := rfl
@[simp] theorem withSr_pc (s : State) (x : StatusReg) : (s.withSr x).pc = s.pc := rfl
@[simp] theorem withSr_sr (s : State) (x : StatusReg) : (s.withSr x).sr = x := rfl
@[simp] theorem withSr_esr (s : State) (x : StatusReg) : (s.withSr x).esr = s.esr := rfl
@[simp] theorem withSr_epc (s : State) (x : StatusReg) : (s.withSr x).epc = s.epc := rfl
@[simp] theorem withSr_dsr (s : State) (x : StatusReg) : (s.withSr x).dsr = s.dsr := rfl
@[simp] theorem withSr_dpc (s : State) (x : StatusReg) : (s.withSr x).dpc = s.dpc := rfl
@[simp] theorem withSr_mem (s : State) (x : StatusReg) : (s.withSr x).mem = s.mem := rfl
@[simp] theorem withSr_stored (s : State) (x : StatusReg) : (s.withSr x).stored = s.stored := rfl
@[simp] theorem withSr_power (s : State) (x : StatusReg) : (s.withSr x).power = s.power := rfl
@[simp] theorem withSr_inputs (s : State) (x : StatusReg) : (s.withSr x).inputs = s.inputs := rfl
@[simp] theorem withSr_moduleOut (s : State) (x : StatusReg) : (s.withSr x).moduleOut = s.moduleOut := rfl
@[simp] theorem withSr_freeNext (s : State) (x : StatusReg) : (s.withSr x).freeNext = s.freeNext := rfl
@[simp] theorem withSr_cfg (s : State) (x : StatusReg) : (s.withSr x).cfg = s.cfg := rfl

@[simp] theorem withEsr_regs (s : State) (x : Word) : (s.withEsr x).regs = s.regs := rfl
@[simp] theorem withEsr_pc (s : State) (x : Word) : (s.withEsr x).pc = s.pc := rfl
@[simp] theorem withEsr_sr (s : State) (x : Word) : (s.withEsr x).sr = s.sr := rfl
@[simp] theorem withEsr_esr (s : State) (x : Word) : (s.withEsr x).esr = x := rfl
@[simp] theorem withEsr_epc (s : State) (x : Word) : (s.withEsr x).epc = s.epc := rfl
@[simp] theorem withEsr_dsr (s : State) (x : Word) : (s.withEsr x).dsr = s.dsr := rfl
@[simp] theorem withEsr_dpc (s : State) (x : Word) : (s.withEsr x).dpc = s.dpc := rfl
@[simp] theorem withEsr_mem (s : State) (x : Word) : (s.withEsr x).mem = s.mem := rfl
@[simp] theorem withEsr_stored (s : State) (x : Word) : (s.withEsr x).stored = s.stored := rfl
@[simp] theorem withEsr_power (s : State) (x : Word) : (s.withEsr x).power = s.power := rfl
@[simp] theorem withEsr_inputs (s : State) (x : Word) : (s.withEsr x).inputs = s.inputs := rfl
@[simp] theorem withEsr_moduleOut (s : State) (x : Word) : (s.withEsr x).moduleOut = s.moduleOut := rfl
@[simp] theorem withEsr_freeNext (s : State) (x : Word) : (s.withEsr x).freeNext = s.freeNext := rfl
@[simp] theorem withEsr_cfg (s : State) (x : Word) : (s.withEsr x).cfg = s.cfg := rfl

@[simp] theorem withEpc_regs (s : State) (x : Word) : (s.withEpc x).regs = s.regs := rfl
@[simp] theorem withEpc_pc (s : State) (x : Word) : (s.withEpc x).pc = s.pc := rfl
@[simp] theorem withEpc_sr (s : State) (x : Word) : (s.withEpc x).sr = s.sr := rfl
@[simp] theorem withEpc_esr (s : State) (x : Word) : (s.withEpc x).esr = s.esr := rfl
@[simp] theorem withEpc_epc (s : State) (x : Word) : (s.withEpc x).epc = x := rfl
@[simp] theorem withEpc_dsr (s : State) (x : Word) : (s.withEpc x).dsr = s.dsr := rfl
@[simp] theorem withEpc_dpc (s : State) (x : Word) : (s.withEpc x).dpc = s.dpc := rfl
@[simp] theorem withEpc_mem (s : State) (x : Word) : (s.withEpc x).mem = s.mem := rfl
@[simp] theorem withEpc_stored (s : State) (x : Word) : (s.withEpc x).stored = s.stored := rfl
@[simp] theorem withEpc_power (s : State) (x : Word) : (s.withEpc x).power = s.power := rfl
@[simp] theorem withEpc_inputs (s : State) (x : Word) : (s.withEpc x).inputs = s.inputs := rfl
@[simp] theorem withEpc_moduleOut (s : State) (x : Word) : (s.withEpc x).moduleOut = s.moduleOut := rfl
@[simp] theorem withEpc_freeNext (s : State) (x : Word) : (s.withEpc x).freeNext = s.freeNext := rfl
@[simp] theorem withEpc_cfg (s : State) (x : Word) : (s.withEpc x).cfg = s.cfg := rfl

@[simp] theorem withDsr_regs (s : State) (x : Word) : (s.withDsr x).regs = s.regs := rfl
@[simp] theorem withDsr_pc (s : State) (x : Word) : (s.withDsr x).pc = s.pc := rfl
@[simp] theorem withDsr_sr (s : State) (x : Word) : (s.withDsr x).sr = s.sr := rfl
@[simp] theorem withDsr_esr (s : State) (x : Word) : (s.withDsr x).esr = s.esr := rfl
@[simp] theorem withDsr_epc (s : State) (x : Word) : (s.withDsr x).epc = s.epc := rfl
@[simp] theorem withDsr_dsr (s : State) (x : Word) : (s.withDsr x).dsr = x := rfl
@[simp] theorem withDsr_dpc (s : State) (x : Word) : (s.withDsr x).dpc = s.dpc := rfl
@[simp] theorem withDsr_mem (s : State) (x : Word) : (s.withDsr x).mem = s.mem := rfl
@[simp] theorem withDsr_stored (s : State) (x : Word) : (s.withDsr x).stored = s.stored := rfl
@[simp] theorem withDsr_power (s : State) (x : Word) : (s.withDsr x).power = s.power := rfl
@[simp] theorem withDsr_inputs (s : State) (x : Word) : (s.withDsr x).inputs = s.inputs := rfl
@[simp] theorem withDsr_moduleOut (s : State) (x : Word) : (s.withDsr x).moduleOut = s.moduleOut := rfl
@[simp] theorem withDsr_freeNext (s : State) (x : Word) : (s.withDsr x).freeNext = s.freeNext := rfl
@[simp] theorem withDsr_cfg (s : State) (x : Word) : (s.withDsr x).cfg = s.cfg := rfl

@[simp] theorem withDpc_regs (s : State) (x : Word) : (s.withDpc x).regs = s.regs := rfl
@[simp] theorem withDpc_pc (s : State) (x : Word) : (s.withDpc x).pc = s.pc := rfl
@[simp] theorem withDpc_sr (s : State) (x : Word) : (s.withDpc x).sr = s.sr := rfl
@[simp] theorem withDpc_esr (s : State) (x : Word) : (s.withDpc x).esr = s.esr := rfl
@[simp] theorem withDpc_epc (s : State) (x : Word) : (s.withDpc x).epc = s.epc := rfl
@[simp] theorem withDpc_dsr (s : State) (x : Word) : (s.withDpc x).dsr = s.dsr := rfl
@[simp] theorem withDpc_dpc (s : State) (x : Word) : (s.withDpc x).dpc = x := rfl
@[simp] theorem withDpc_mem (s : State) (x : Word) : (s.withDpc x).mem = s.mem := rfl
@[simp] theorem withDpc_stored (s : State) (x : Word) : (s.withDpc x).stored = s.stored := rfl
@[simp] theorem withDpc_power (s : State) (x : Word) : (s.withDpc x).power = s.power := rfl
@[simp] theorem withDpc_inputs (s : State) (x : Word) : (s.withDpc x).inputs = s.inputs := rfl
@[simp] theorem withDpc_moduleOut (s : State) (x : Word) : (s.withDpc x).moduleOut = s.moduleOut := rfl
@[simp] theorem withDpc_freeNext (s : State) (x : Word) : (s.withDpc x).freeNext = s.freeNext := rfl
@[simp] theorem withDpc_cfg (s : State) (x : Word) : (s.withDpc x).cfg = s.cfg := rfl

@[simp] theorem withMem_regs (s : State) (x : Memory) : (s.withMem x).regs = s.regs := rfl
@[simp] theorem withMem_pc (s : State) (x : Memory) : (s.withMem x).pc = s.pc := rfl
@[simp] theorem withMem_sr (s : State) (x : Memory) : (s.withMem x).sr = s.sr := rfl
@[simp] theorem withMem_esr (s : State) (x : Memory) : (s.withMem x).esr = s.esr := rfl
@[simp] theorem withMem_epc (s : State) (x : Memory) : (s.withMem x).epc = s.epc := rfl
@[simp] theorem withMem_dsr (s : State) (x : Memory) : (s.withMem x).dsr = s.dsr := rfl
@[simp] theorem withMem_dpc (s : State) (x : Memory) : (s.withMem x).dpc = s.dpc := rfl
@[simp] theorem withMem_mem (s : State) (x : Memory) : (s.withMem x).mem = x := rfl
@[simp] theorem withMem_stored (s : State) (x : Memory) : (s.withMem x).stored = s.stored := rfl
@[simp] theorem withMem_power (s : State) (x : Memory) : (s.withMem x).power = s.power := rfl
@[simp] theorem withMem_inputs (s : State) (x : Memory) : (s.withMem x).inputs = s.inputs := rfl
@[simp] theorem withMem_moduleOut (s : State) (x : Memory) : (s.withMem x).moduleOut = s.moduleOut := rfl
@[simp] theorem withMem_freeNext (s : State) (x : Memory) : (s.withMem x).freeNext = s.freeNext := rfl
@[simp] theorem withMem_cfg (s : State) (x : Memory) : (s.withMem x).cfg = s.cfg := rfl

@[simp] theorem withStored_regs (s : State) (x : List Nat) : (s.withStored x).regs = s.regs := rfl
@[simp] theorem withStored_pc (s : State) (x : List Nat) : (s.withStored x).pc = s.pc := rfl
@[simp] theorem withStored_sr (s : State) (x : List Nat) : (s.withStored x).sr = s.sr := rfl
@[simp] theorem withStored_esr (s : State) (x : List Nat) : (s.withStored x).esr = s.esr := rfl
@[simp] theorem withStored_epc (s : State) (x : List Nat) : (s.withStored x).epc = s.epc := rfl
@[simp] theorem withStored_dsr (s : State) (x : List Nat) : (s.withStored x).dsr = s.dsr := rfl
@[simp] theorem withStored_dpc (s : State) (x : List Nat) : (s.withStored x).dpc = s.dpc := rfl
@[simp] theorem withStored_mem (s : State) (x : List Nat) : (s.withStored x).mem = s.mem := rfl
@[simp] theorem withStored_stored (s : State) (x : List Nat) : (s.withStored x).stored = x := rfl
@[simp] theorem withStored_power (s : State) (x : List Nat) : (s.withStored x).power = s.power := rfl
@[simp] theorem withStored_inputs (s : State) (x : List Nat) : (s.withStored x).inputs = s.inputs := rfl
@[simp] theorem withStored_moduleOut (s : State) (x : List Nat) : (s.withStored x).moduleOut = s.moduleOut := rfl
@[simp] theorem withStored_freeNext (s : State) (x : List Nat) : (s.withStored x).freeNext = s.freeNext := rfl
@[simp] theorem withStored_cfg (s : State) (x : List Nat) : (s.withStored x).cfg = s.cfg := rfl

@[simp] theorem withPower_regs (s : State) (x : Power) : (s.withPower x).regs = s.regs := rfl
@[simp] theorem withPower_pc (s : State) (x : Power) : (s.withPower x).pc = s.pc := rfl
@[simp] theorem withPower_sr (s : State) (x : Power) : (s.withPower x).sr = s.sr := rfl
@[simp] theorem withPower_esr (s : State) (x : Power) : (s.withPower x).esr = s.esr := rfl
@[simp] theorem withPower_epc (s : State) (x : Power) : (s.withPower x).epc = s.epc := rfl
@[simp] theorem withPower_dsr (s : State) (x : Power) : (s.withPower x).dsr = s.dsr := rfl
@[simp] theorem withPower_dpc (s : State) (x : Power) : (s.withPower x).dpc = s.dpc := rfl
@[simp] theorem withPower_mem (s : State) (x : Power) : (s.withPower x).mem = s.mem := rfl
@[simp] theorem withPower_stored (s : State) (x : Power) : (s.withPower x).stored = s.stored := rfl
@[simp] theorem withPower_power (s : State) (x : Power) : (s.withPower x).power = x := rfl
@[simp] theorem withPower_inputs (s : State) (x : Power) : (s.withPower x).inputs = s.inputs := rfl
@[simp] theorem withPower_moduleOut (s : State) (x : Power) : (s.withPower x).moduleOut = s.moduleOut := rfl
@[simp] theorem withPower_freeNext (s : State) (x : Power) : (s.withPower x).freeNext = s.freeNext := rfl
@[simp] theorem withPower_cfg (s : State) (x : Power) : (s.withPower x).cfg = s.cfg := rfl

@[simp] theorem withInputs_regs (s : State) (x : List StepInput) : (s.withInputs x).regs = s.regs := rfl
@[simp] theorem withInputs_pc (s : State) (x : List StepInput) : (s.withInputs x).pc = s.pc := rfl
@[simp] theorem withInputs_sr (s : State) (x : List StepInput) : (s.withInputs x).sr = s.sr := rfl
@[simp] theorem withInputs_esr (s : State) (x : List StepInput) : (s.withInputs x).esr = s.esr := rfl
@[simp] theorem withInputs_epc (s : State) (x : List StepInput) : (s.withInputs x).epc = s.epc := rfl
@[simp] theorem withInputs_dsr (s : State) (x : List StepInput) : (s.withInputs x).dsr = s.dsr := rfl
@[simp] theorem withInputs_dpc (s : State) (x : List StepInput) : (s.withInputs x).dpc = s.dpc := rfl
@[simp] theorem withInputs_mem (s : State) (x : List StepInput) : (s.withInputs x).mem = s.mem := rfl
@[simp] theorem withInputs_stored (s : State) (x : List StepInput) : (s.withInputs x).stored = s.stored := rfl
@[simp] theorem withInputs_power (s : State) (x : List StepInput) : (s.withInputs x).power = s.power := rfl
@[simp] theorem withInputs_inputs (s : State) (x : List StepInput) : (s.withInputs x).inputs = x := rfl
@[simp] theorem withInputs_moduleOut (s : State) (x : List StepInput) : (s.withInputs x).moduleOut = s.moduleOut := rfl
@[simp] theorem withInputs_freeNext (s : State) (x : List StepInput) : (s.withInputs x).freeNext = s.freeNext := rfl
@[simp] theorem withInputs_cfg (s : State) (x : List StepInput) : (s.withInputs x).cfg = s.cfg := rfl

@[simp] theorem withModuleOut_regs (s : State) (x : List ModuleMsg) : (s.withModuleOut x).regs = s.regs := rfl
@[simp] theorem withModuleOut_pc (s : State) (x : List ModuleMsg) : (s.withModuleOut x).pc = s.pc := rfl
@[simp] theorem withModuleOut_sr (s : State) (x : List ModuleMsg) : (s.withModuleOut x).sr = s.sr := rfl
@[simp] theorem withModuleOut_esr (s : State) (x : List ModuleMsg) : (s.withModuleOut x).esr = s.esr := rfl
@[simp] theorem withModuleOut_epc (s : State) (x : List ModuleMsg) : (s.withModuleOut x).epc = s.epc := rfl
@[simp] theorem withModuleOut_dsr (s : State) (x : List ModuleMsg) : (s.withModuleOut x).dsr = s.dsr := rfl
@[simp] theorem withModuleOut_dpc (s : State) (x : List ModuleMsg) : (s.withModuleOut x).dpc = s.dpc := rfl
@[simp] theorem withModuleOut_mem (s : State) (x : List ModuleMsg) : (s.withModuleOut x).mem = s.mem := rfl
@[simp] theorem withModuleOut_stored (s : State) (x : List ModuleMsg) : (s.withModuleOut x).stored = s.stored := rfl
@[simp] theorem withModuleOut_power (s : State) (x : List ModuleMsg) : (s.withModuleOut x).power = s.power := rfl
@[simp] theorem withModuleOut_inputs (s : State) (x : List ModuleMsg) : (s.withModuleOut x).inputs = s.inputs := rfl
@[simp] theorem withModuleOut_moduleOut (s : State) (x : List ModuleMsg) : (s.withModuleOut x).moduleOut = x := rfl
@[simp] theorem withModuleOut_freeNext (s : State) (x : List ModuleMsg) : (s.withModuleOut x).freeNext = s.freeNext := rfl
@[simp] theorem withModuleOut_cfg (s : State) (x : List ModuleMsg) : (s.withModuleOut x).cfg = s.cfg := rfl

@[simp] theorem withFreeNext_regs (s : State) (x : Nat) : (s.withFreeNext x).regs = s.regs := rfl
@[simp] theorem withFreeNext_pc (s : State) (x : Nat) : (s.withFreeNext x).pc = s.pc := rfl
@[simp] theorem withFreeNext_sr (s : State) (x : Nat) : (s.withFreeNext x).sr = s.sr := rfl
@[simp] theorem withFreeNext_esr (s : State) (x : Nat) : (s.withFreeNext x).esr = s.esr := rfl
@[simp] theorem withFreeNext_epc (s : State) (x : Nat) : (s.withFreeNext x).epc = s.epc := rfl
@[simp] theorem withFreeNext_dsr (s : State) (x : Nat) : (s.withFreeNext x).dsr = s.dsr := rfl
@[simp] theorem withFreeNext_dpc (s : State) (x : Nat) : (s.withFreeNext x).dpc = s.dpc := rfl
@[simp] theorem withFreeNext_mem (s : State) (x : Nat) : (s.withFreeNext x).mem = s.mem := rfl
@[simp] theorem withFreeNext_stored (s : State) (x : Nat) : (s.withFreeNext x).stored = s.stored := rfl
@[simp] theorem withFreeNext_power (s : State) (x : Nat) : (s.withFreeNext x).power = s.power := rfl
@[simp] theorem withFreeNext_inputs (s : State) (x : Nat) : (s.withFreeNext x).inputs = s.inputs := rfl
@[simp] theorem withFreeNext_moduleOut (s : State) (x : Nat) : (s.withFreeNext x).moduleOut = s.moduleOut := rfl
@[simp] theorem withFreeNext_freeNext (s : State) (x : Nat) : (s.withFreeNext x).freeNext = x := rfl
@[simp] theorem withFreeNext_cfg (s : State) (x : Nat) : (s.withFreeNext x).cfg = s.cfg := rfl

end Sys2Proof.Machine
end

