-- ==== Sys2Proof/Laws/Ops.lean ====
section
/-! SUPPORT. What each shared operation can do, said once. -/

namespace Sys2Proof.Machine

/-! ### Registers -/

@[simp] theorem reg_zero (s : State) : s.reg 0#5 = 0#32 := rfl

/-- A register read depends on the register file alone. -/
theorem reg_congr {s t : State} (h : t.regs = s.regs) (r : RegNo) : t.reg r = s.reg r := by
  simp only [State.reg, h]

/-- A register read after a register write. -/
theorem reg_writeReg (s : State) (r : RegNo) (v : Word) (q : RegNo) :
    (s.writeReg r v).reg q = if q = r ∧ r ≠ 0#5 then v else s.reg q := by
  by_cases hr : r = 0#5
  · simp [State.writeReg, hr]
  · by_cases hq : q = 0#5
    · subst hq
      simp only [State.reg, if_true, State.writeReg, hr, if_false]
      rw [if_neg (fun h => hr h.1.symm)]
    · simp only [State.writeReg, hr, if_false, State.reg, hq, withRegs_regs, ne_eq, not_false_eq_true, and_true]
      by_cases h : q = r
      · subst h; simp
      · rw [if_neg h, Vector.getElem_set_ne]
        exact fun h' => h (BitVec.eq_of_toNat_eq h'.symm)

/-- Slot 0 of the register file is never written. -/
theorem writeReg_slot0 (s : State) (r : RegNo) (v : Word) : (s.writeReg r v).regs[0] = s.regs[0] := by
  by_cases hr : r = 0#5
  · simp [State.writeReg, hr]
  · simp only [State.writeReg, hr, if_false, withRegs_regs]
    rw [Vector.getElem_set_ne]
    exact fun h => hr (BitVec.eq_of_toNat_eq h)

@[simp] theorem writeReg_pc (s : State) (r : RegNo) (v : Word) : (s.writeReg r v).pc = s.pc := by
  unfold State.writeReg; split <;> rfl
@[simp] theorem writeReg_sr (s : State) (r : RegNo) (v : Word) : (s.writeReg r v).sr = s.sr := by
  unfold State.writeReg; split <;> rfl
@[simp] theorem writeReg_esr (s : State) (r : RegNo) (v : Word) : (s.writeReg r v).esr = s.esr := by
  unfold State.writeReg; split <;> rfl
@[simp] theorem writeReg_epc (s : State) (r : RegNo) (v : Word) : (s.writeReg r v).epc = s.epc := by
  unfold State.writeReg; split <;> rfl
@[simp] theorem writeReg_dsr (s : State) (r : RegNo) (v : Word) : (s.writeReg r v).dsr = s.dsr := by
  unfold State.writeReg; split <;> rfl
@[simp] theorem writeReg_dpc (s : State) (r : RegNo) (v : Word) : (s.writeReg r v).dpc = s.dpc := by
  unfold State.writeReg; split <;> rfl
@[simp] theorem writeReg_mem (s : State) (r : RegNo) (v : Word) : (s.writeReg r v).mem = s.mem := by
  unfold State.writeReg; split <;> rfl
@[simp] theorem writeReg_stored (s : State) (r : RegNo) (v : Word) : (s.writeReg r v).stored = s.stored := by
  unfold State.writeReg; split <;> rfl
@[simp] theorem writeReg_power (s : State) (r : RegNo) (v : Word) : (s.writeReg r v).power = s.power := by
  unfold State.writeReg; split <;> rfl
@[simp] theorem writeReg_inputs (s : State) (r : RegNo) (v : Word) : (s.writeReg r v).inputs = s.inputs := by
  unfold State.writeReg; split <;> rfl
@[simp] theorem writeReg_moduleOut (s : State) (r : RegNo) (v : Word) : (s.writeReg r v).moduleOut = s.moduleOut := by
  unfold State.writeReg; split <;> rfl
@[simp] theorem writeReg_freeNext (s : State) (r : RegNo) (v : Word) : (s.writeReg r v).freeNext = s.freeNext := by
  unfold State.writeReg; split <;> rfl
@[simp] theorem writeReg_cfg (s : State) (r : RegNo) (v : Word) : (s.writeReg r v).cfg = s.cfg := by
  unfold State.writeReg; split <;> rfl

@[simp] theorem advance_regs (s : State) : s.advance.regs = s.regs := rfl
@[simp] theorem advance_pc (s : State) : s.advance.pc = s.pc + 4#32 := rfl
@[simp] theorem advance_sr (s : State) : s.advance.sr = s.sr := rfl
@[simp] theorem advance_esr (s : State) : s.advance.esr = s.esr := rfl
@[simp] theorem advance_epc (s : State) : s.advance.epc = s.epc := rfl
@[simp] theorem advance_dsr (s : State) : s.advance.dsr = s.dsr := rfl
@[simp] theorem advance_dpc (s : State) : s.advance.dpc = s.dpc := rfl
@[simp] theorem advance_mem (s : State) : s.advance.mem = s.mem := rfl
@[simp] theorem advance_stored (s : State) : s.advance.stored = s.stored := rfl
@[simp] theorem advance_power (s : State) : s.advance.power = s.power := rfl
@[simp] theorem advance_inputs (s : State) : s.advance.inputs = s.inputs := rfl
@[simp] theorem advance_moduleOut (s : State) : s.advance.moduleOut = s.moduleOut := rfl
@[simp] theorem advance_freeNext (s : State) : s.advance.freeNext = s.freeNext := rfl
@[simp] theorem advance_cfg (s : State) : s.advance.cfg = s.cfg := rfl

@[simp] theorem send_regs (s : State) (m : ModuleMsg) : (s.send m).regs = s.regs := rfl
@[simp] theorem send_pc (s : State) (m : ModuleMsg) : (s.send m).pc = s.pc := rfl
@[simp] theorem send_sr (s : State) (m : ModuleMsg) : (s.send m).sr = s.sr := rfl
@[simp] theorem send_esr (s : State) (m : ModuleMsg) : (s.send m).esr = s.esr := rfl
@[simp] theorem send_epc (s : State) (m : ModuleMsg) : (s.send m).epc = s.epc := rfl
@[simp] theorem send_dsr (s : State) (m : ModuleMsg) : (s.send m).dsr = s.dsr := rfl
@[simp] theorem send_dpc (s : State) (m : ModuleMsg) : (s.send m).dpc = s.dpc := rfl
@[simp] theorem send_mem (s : State) (m : ModuleMsg) : (s.send m).mem = s.mem := rfl
@[simp] theorem send_stored (s : State) (m : ModuleMsg) : (s.send m).stored = s.stored := rfl
@[simp] theorem send_power (s : State) (m : ModuleMsg) : (s.send m).power = s.power := rfl
@[simp] theorem send_inputs (s : State) (m : ModuleMsg) : (s.send m).inputs = s.inputs := rfl
@[simp] theorem send_moduleOut (s : State) (m : ModuleMsg) : (s.send m).moduleOut = m :: s.moduleOut := rfl
@[simp] theorem send_freeNext (s : State) (m : ModuleMsg) : (s.send m).freeNext = s.freeNext := rfl
@[simp] theorem send_cfg (s : State) (m : ModuleMsg) : (s.send m).cfg = s.cfg := rfl

@[simp] theorem storeAt_regs (s : State) (d : DataAccess) (v : Word) : (s.storeAt d v).regs = s.regs := rfl
@[simp] theorem storeAt_pc (s : State) (d : DataAccess) (v : Word) : (s.storeAt d v).pc = s.pc := rfl
@[simp] theorem storeAt_sr (s : State) (d : DataAccess) (v : Word) : (s.storeAt d v).sr = s.sr := rfl
@[simp] theorem storeAt_esr (s : State) (d : DataAccess) (v : Word) : (s.storeAt d v).esr = s.esr := rfl
@[simp] theorem storeAt_epc (s : State) (d : DataAccess) (v : Word) : (s.storeAt d v).epc = s.epc := rfl
@[simp] theorem storeAt_dsr (s : State) (d : DataAccess) (v : Word) : (s.storeAt d v).dsr = s.dsr := rfl
@[simp] theorem storeAt_dpc (s : State) (d : DataAccess) (v : Word) : (s.storeAt d v).dpc = s.dpc := rfl
@[simp] theorem storeAt_mem (s : State) (d : DataAccess) (v : Word) :
    (s.storeAt d v).mem = s.mem.store s.cfg.endian (s.physical .write d.addr) v d.size := rfl
@[simp] theorem storeAt_stored (s : State) (d : DataAccess) (v : Word) :
    (s.storeAt d v).stored = markBytes s.stored (s.physical .write d.addr).toNat d.size.bytes := rfl
@[simp] theorem storeAt_power (s : State) (d : DataAccess) (v : Word) : (s.storeAt d v).power = s.power := rfl
@[simp] theorem storeAt_inputs (s : State) (d : DataAccess) (v : Word) : (s.storeAt d v).inputs = s.inputs := rfl
@[simp] theorem storeAt_moduleOut (s : State) (d : DataAccess) (v : Word) : (s.storeAt d v).moduleOut = s.moduleOut := rfl
@[simp] theorem storeAt_freeNext (s : State) (d : DataAccess) (v : Word) : (s.storeAt d v).freeNext = s.freeNext := rfl
@[simp] theorem storeAt_cfg (s : State) (d : DataAccess) (v : Word) : (s.storeAt d v).cfg = s.cfg := rfl

/-- `pc` is aligned when it is a multiple of 4 (20_memory.md R68). -/
theorem pcAligned_iff (s : State) : s.pcAligned = true ↔ s.pc.toNat % 4 = 0 := by
  unfold State.pcAligned pcMisaligned isMisaligned Size.bytes
  by_cases h : s.pc.toNat % 4 = 0 <;> simp [h]

/-- The canonical form of a state, part by part. -/
theorem canonical_iff (s : State) :
    s.canonical = true ↔ s.mem.wf = true ∧ risesFrom 0 s.stored = true ∧ s.regs[0] = 0#32 := by
  simp [State.canonical, and_assoc]

/-! ### The common ends -/

/-- An instruction that ends in `writeAndAdvance` completes: one register, and `pc`. -/
theorem writeAndAdvance_completes (r : RegNo) (v : Word) (s : State) :
    Completes (writeAndAdvance r v s) (OnlyReg s r v) :=
  ⟨_, rfl, by simp, fun q => (reg_congr (by simp) q).trans (reg_writeReg s r v q), by simp [keepsControl],
    ⟨fun _ => by simp, by simp⟩, by simp [sendsNothing], by simp [keepsRest]⟩

/-- A branch completes: `pc` alone. -/
theorem branchIf_completes (b : Bool) (s10 : BitVec 10) (s : State) :
    Completes (branchIf b s10 s) (OnlyPc s (if b then relativeTarget s s10 else following s)) :=
  ⟨_, rfl, rfl, fun _ => rfl, ⟨rfl, rfl, rfl, rfl, rfl⟩, ⟨fun _ => rfl, rfl⟩, rfl, ⟨rfl, rfl, rfl, rfl⟩⟩

/-! ### Exceptions -/

@[simp] theorem vectorBase_enter (c : Config) (r : StatusReg) : vectorBase c r.enter = vectorBase c r := rfl

/-- Taking an exception: the state saved into, with `pc` at the vector word, if that word can be read. -/
theorem takeException_next {e : Exception} {p : Word} {s t : State} (h : takeException e p s = .next t) :
    t = (saveAndEnter e p s).withPc (vectorWord s e.offset) ∧ vectorReadable s e.offset := by
  unfold takeException jumpThroughVector at h
  have hc : (saveAndEnter e p s).cfg = s.cfg := by cases e <;> rfl
  have hm : (saveAndEnter e p s).mem = s.mem := by cases e <;> rfl
  rw [hc, hm] at h
  split at h
  · cases h
  · next hf => cases h; exact ⟨rfl, by simpa [vectorReadable] using hf⟩

/-- Taking an exception succeeds when the vector word can be read. -/
theorem takeException_readable {e : Exception} {p : Word} {s : State} (h : vectorReadable s e.offset) :
    takeException e p s = .next ((saveAndEnter e p s).withPc (vectorWord s e.offset)) := by
  unfold takeException jumpThroughVector
  have hc : (saveAndEnter e p s).cfg = s.cfg := by cases e <;> rfl
  have hm : (saveAndEnter e p s).mem = s.mem := by cases e <;> rfl
  rw [hc, hm, show accessFault s.cfg (vectorBase s.cfg s.sr + e.offset) 4 .read true = false from h]
  rfl

/-- A non-debug exception enters as R290 says. -/
theorem takeException_nonDebug {e : Exception} {p : Word} {s : State} (he : e.isDebug = false)
    (h : vectorReadable s e.offset) : Completes (takeException e p s) (EntersNonDebug s e.offset p) := by
  refine ⟨_, takeException_readable h, ?_⟩
  simp only [saveAndEnter, he]
  exact ⟨rfl, rfl, rfl, rfl, rfl, rfl, fun _ => rfl, ⟨fun _ => rfl, rfl⟩, rfl, ⟨rfl, rfl, rfl, rfl⟩⟩

/-- A debug exception enters as R291 says. -/
theorem takeException_debug {e : Exception} {p : Word} {s : State} (he : e.isDebug = true)
    (h : vectorReadable s 0x08#32) : Completes (takeException e p s) (EntersDebug s p) := by
  have ho : e.offset = 0x08#32 := by cases e <;> first | rfl | cases he
  refine ⟨_, takeException_readable (ho ▸ h), ?_⟩
  simp only [saveAndEnter, he, ho]
  exact ⟨rfl, rfl, rfl, rfl, rfl, rfl, fun _ => rfl, ⟨fun _ => rfl, rfl⟩, rfl, ⟨rfl, rfl, rfl, rfl⟩⟩

/-- A privileged meaning in supervisor mode is its own effect. -/
theorem privileged_supervisor {s : State} {o : Result} (h : s.sr.sm = true) : privileged s o = o := by
  simp [privileged, h]

/-- A privileged meaning in user mode is ILLINS at its own address. -/
theorem privileged_user {s : State} {o : Result} (h : s.sr.sm = false) :
    privileged s o = takeException .illins s.pc s := by
  simp [privileged, h]

/-- What a privileged meaning that answers a next state has done. -/
theorem privileged_next {s t : State} {o : Result} (h : privileged s o = .next t) :
    (s.sr.sm = true ∧ o = .next t) ∨ (s.sr.sm = false ∧ takeException .illins s.pc s = .next t) := by
  unfold privileged at h
  split at h
  · next hs => exact .inl ⟨hs, h⟩
  · next hs => exact .inr ⟨by simpa using hs, h⟩

/-! ### Resets -/

/-- A jump through a vector that answers a next state has loaded `pc` from a readable word. -/
theorem jumpThroughVector_next {va : Word} {s t : State} (h : jumpThroughVector va s = .next t) :
    t = s.withPc (s.mem.read32 s.cfg.endian (translate s.cfg va .read true).toNat) ∧ accessFault s.cfg va 4 .read true = false := by
  unfold jumpThroughVector at h
  split at h
  · cases h
  · next hf => cases h; exact ⟨rfl, by simpa using hf⟩

/-- A jump through a readable vector. -/
theorem jumpThroughVector_readable {va : Word} {s : State} (h : accessFault s.cfg va 4 .read true = false) :
    jumpThroughVector va s = .next (s.withPc (s.mem.read32 s.cfg.endian (translate s.cfg va .read true).toNat)) := by
  simp [jumpThroughVector, h]

/-- The registers a reset leaves free: slot 0 apart. -/
@[simp] theorem freeRegs_slot0 (n : Nat) : (freeRegs n)[0] = 0#32 := by simp [freeRegs]

@[simp] theorem manualResetState_esr (s : State) : (manualResetState s).esr = s.sr.toWord := by simp [manualResetState]
@[simp] theorem manualResetState_epc (s : State) : (manualResetState s).epc = s.pc := by simp [manualResetState]
@[simp] theorem manualResetState_sr (s : State) : (manualResetState s).sr = StatusReg.reset := by simp [manualResetState]
@[simp] theorem manualResetState_mem (s : State) : (manualResetState s).mem = s.mem := by simp [manualResetState]
@[simp] theorem manualResetState_stored (s : State) : (manualResetState s).stored = s.stored := by simp [manualResetState]
@[simp] theorem manualResetState_power (s : State) : (manualResetState s).power = .running := by simp [manualResetState]
@[simp] theorem manualResetState_inputs (s : State) : (manualResetState s).inputs = s.inputs := by simp [manualResetState]
@[simp] theorem manualResetState_moduleOut (s : State) : (manualResetState s).moduleOut = s.moduleOut := by simp [manualResetState]
@[simp] theorem manualResetState_cfg (s : State) : (manualResetState s).cfg = s.cfg := by simp [manualResetState]
@[simp] theorem manualResetState_regs (s : State) : (manualResetState s).regs = freeRegs s.freeNext := by simp [manualResetState]
@[simp] theorem debugBootstrapState_dsr (s : State) : (debugBootstrapState s).dsr = s.sr.toWord := by simp [debugBootstrapState]
@[simp] theorem debugBootstrapState_dpc (s : State) : (debugBootstrapState s).dpc = s.pc := by simp [debugBootstrapState]
@[simp] theorem debugBootstrapState_mem (s : State) : (debugBootstrapState s).mem = s.mem := by simp [debugBootstrapState]
@[simp] theorem debugBootstrapState_stored (s : State) : (debugBootstrapState s).stored = s.stored := by simp [debugBootstrapState]
@[simp] theorem debugBootstrapState_power (s : State) : (debugBootstrapState s).power = .running := by simp [debugBootstrapState]
@[simp] theorem debugBootstrapState_inputs (s : State) : (debugBootstrapState s).inputs = s.inputs := by simp [debugBootstrapState]
@[simp] theorem debugBootstrapState_moduleOut (s : State) : (debugBootstrapState s).moduleOut = s.moduleOut := by simp [debugBootstrapState]
@[simp] theorem debugBootstrapState_cfg (s : State) : (debugBootstrapState s).cfg = s.cfg := by simp [debugBootstrapState]
@[simp] theorem debugBootstrapState_regs (s : State) : (debugBootstrapState s).regs = freeRegs s.freeNext := by simp [debugBootstrapState]
@[simp] theorem debugBootstrapState_sr (s : State) : (debugBootstrapState s).sr =
    ⟨(Config.freeWord s.freeNext).setWidth 3, true, true, false, false⟩ := by simp [debugBootstrapState]

/-! ### Translation (20_memory.md R76) -/

/-- Without clauses translation is the identity (D7). -/
theorem translate_identity {c : Config} (h : c.translations = []) (a : Word) (k : AccessKind) (m : Bool) :
    translate c a k m = a := by
  simp [translate, h]

/-- Translation keeps bits 1 and 0 of the address. -/
theorem translate_low (c : Config) (a : Word) (k : AccessKind) (m : Bool) :
    (translate c a k m).toNat % 4 = a.toNat % 4 := by
  have low (x : Word) : x.toNat % 4 = (x.setWidth 2).toNat := by simp
  rw [low, low]
  congr 1
  unfold translate
  split
  · rfl
  · next r _ =>
    have hb : (translatedBits r).setWidth 2 = 0#2 := by
      rw [translatedBits, BitVec.setWidth_and]; exact BitVec.and_zero
    rw [BitVec.setWidth_or, BitVec.setWidth_and, BitVec.setWidth_and, BitVec.setWidth_not (by decide), hb]
    simp only [BitVec.and_zero, BitVec.or_zero, BitVec.not_zero]
    exact BitVec.and_allOnes

/-- Translation keeps the alignment of an access. -/
theorem physical_aligned {s : State} {k : AccessKind} {a : Word} {sz : Size} (h : a.toNat % sz.bytes = 0) :
    (s.physical k a).toNat % sz.bytes = 0 := by
  have hl : (s.physical k a).toNat % 4 = a.toNat % 4 := translate_low s.cfg a k s.sr.sm
  cases sz <;> simp only [Size.bytes] at * <;> omega

/-! ### Data accesses -/

/-- What an access that answers a next state has done. -/
theorem withAccess_next {d : DataAccess} {s t : State} {go : Result} (h : withAccess d s go = .next t) :
    (checkAccess s d = .ok ∧ go = .next t) ∨
      (checkAccess s d = .dfault ∧ takeException .dfault s.pc s = .next t) := by
  unfold withAccess at h
  split at h
  · next hc => exact .inl ⟨hc, h⟩
  · next hc => exact .inr ⟨hc, h⟩
  · cases h

/-- An access that passes its checks is aligned. -/
theorem checkAccess_aligned {s : State} {d : DataAccess} (h : checkAccess s d = .ok) :
    d.addr.toNat % d.size.bytes = 0 := by
  unfold checkAccess at h
  split at h
  · split at h <;> cases h
  · next hm => simpa [isMisaligned] using hm

/-- A load whose access passes its checks completes: one register, and `pc`. -/
theorem loadInto_completes {ra : RegNo} {x : Extend} {d : DataAccess} {s : State} (h : checkAccess s d = .ok) :
    Completes (loadInto ra x d s) (OnlyReg s ra (extendTo x d.size (s.loaded d))) := by
  unfold loadInto withAccess
  rw [h]
  exact writeAndAdvance_completes _ _ _

/-- The state of a store leaves all but the access's bytes. -/
theorem storeAt_outside (s : State) (d : DataAccess) (v : Word) : keepsMemoryOutside s d (s.storeAt d v) := by
  refine ⟨fun a ha => read_store_other _ _ _ _ _ _ ?_, fun a => ?_⟩
  · unfold DataAccess.covers at ha; omega
  · rw [storeAt_stored, mem_markBytes]; rfl

/-- A store whose access passes its checks completes: the bytes of the access, and `pc`. -/
theorem storeFrom_completes {ra : RegNo} {d : DataAccess} {s : State} (h : checkAccess s d = .ok) :
    Completes (storeFrom ra d s) fun t =>
      OnlyStore s d t ∧ t.mem = s.mem.store s.cfg.endian (s.physical .write d.addr) (s.reg ra) d.size := by
  unfold storeFrom withAccess
  rw [h]
  exact ⟨_, rfl, ⟨rfl, fun _ => rfl, ⟨rfl, rfl, rfl, rfl, rfl⟩, storeAt_outside s d _, rfl, ⟨rfl, rfl, rfl, rfl⟩⟩, rfl⟩

/-! ### The set of stored addresses -/

theorem risesFrom_mono {lo lo' : Nat} (l : List Nat) (h : lo' ≤ lo) (hl : risesFrom lo l) : risesFrom lo' l := by
  cases l with
  | nil => rfl
  | cons a r =>
    simp only [risesFrom, Bool.and_eq_true, decide_eq_true_eq] at hl ⊢
    exact ⟨⟨by omega, hl.1.2⟩, hl.2⟩

theorem risesFrom_insert (l : List Nat) (lo x : Nat) (hl : risesFrom lo l) (hlo : lo ≤ x) (hx : x < 2 ^ 32) :
    risesFrom lo (insertAddress l x) := by
  induction l generalizing lo with
  | nil =>
    simp only [insertAddress, risesFrom, Bool.and_eq_true, decide_eq_true_eq]
    exact ⟨⟨hlo, hx⟩, trivial⟩
  | cons a r ih =>
    simp only [risesFrom, Bool.and_eq_true, decide_eq_true_eq] at hl
    simp only [insertAddress]
    split
    · simp only [risesFrom, Bool.and_eq_true, decide_eq_true_eq]
      exact ⟨⟨hlo, hx⟩, ⟨by omega, hl.1.2⟩, hl.2⟩
    · split
      · simpa only [risesFrom, Bool.and_eq_true, decide_eq_true_eq] using hl
      · simp only [risesFrom, Bool.and_eq_true, decide_eq_true_eq]
        exact ⟨hl.1, ih _ hl.2 (by omega)⟩

/-- Marking the bytes of an access inside the address space keeps the set strictly rising. -/
theorem risesFrom_markBytes (l : List Nat) (a n : Nat) (hl : risesFrom 0 l) (h : a + n ≤ 2 ^ 32) :
    risesFrom 0 (markBytes l a n) := by
  induction n with
  | zero => exact hl
  | succ n ih => exact risesFrom_insert _ _ _ (ih (by omega)) (by omega) (by omega)

end Sys2Proof.Machine
end

