-- ==== Sys2Proof/Laws/Exec.lean ====
section
/-! SUPPORT. What `exec` and `step` can do, said once for all instructions. -/

namespace Sys2Proof.Machine

/-- What is unchanged when an instruction takes an exception, but for its destination registers (TRAP). -/
def Untouched (i : Instr) (s u : State) : Prop :=
  keepsControl s u ∧ u.mem = s.mem ∧ u.stored = s.stored ∧ u.cfg = s.cfg ∧ u.inputs = s.inputs ∧ u.power = s.power ∧
    u.regs[0] = s.regs[0] ∧ ∀ r, r ∉ destinations i → u.reg r = s.reg r

/-- The memory part of an effect: untouched (the set of stored bytes kept, or emptied by a publishing command), or one
aligned store at the access of the instruction. -/
def MemoryEffect (i : Instr) (s t : State) : Prop :=
  (t.mem = s.mem ∧ (t.stored = s.stored ∨ t.stored = [])) ∨
    ∃ d v, writesMemory i = true ∧ dataAccess i s = some d ∧ d.addr.toNat % d.size.bytes = 0 ∧
      t.mem = s.mem.store s.cfg.endian (s.physical .write d.addr) v d.size ∧
      t.stored = markBytes s.stored (s.physical .write d.addr).toNat d.size.bytes

/-- The control part of an effect: untouched, or WCR in supervisor mode (SM kept), or RTE in supervisor mode. -/
def ControlEffect (i : Instr) (s t : State) : Prop :=
  keepsControl s t ∨ (s.sr.sm = true ∧ ((∃ ra cr, i = .wcr ra cr) ∧ t.sr.sm = true ∨ i = .rte))

/-- Where an effect leaves `pc`. -/
def PcEffect (i : Instr) (s t : State) : Prop :=
  (∃ k : Word, t.pc = s.pc + 4#32 + (k <<< 2)) ∨ (∃ ra rb u, i = .ja ra rb u) ∨ i = .rte

/-- The effect of an instruction that takes no exception. -/
def Effect (i : Instr) (s t : State) : Prop :=
  t.cfg = s.cfg ∧ t.inputs = s.inputs ∧ t.regs[0] = s.regs[0] ∧ (∀ r, r ∉ destinations i → t.reg r = s.reg r) ∧
    MemoryEffect i s t ∧ ControlEffect i s t ∧ PcEffect i s t

/-- What an instruction that answers a next state has done: taken an exception, or its own effect. -/
def Did (i : Instr) (s t : State) : Prop := (∃ e p u, Untouched i s u ∧ takeException e p u = .next t) ∨ Effect i s t

theorem untouched_self (i : Instr) (s : State) : Untouched i s s :=
  ⟨⟨rfl, rfl, rfl, rfl, rfl⟩, rfl, rfl, rfl, rfl, rfl, rfl, fun _ _ => rfl⟩

theorem did_exception {i : Instr} {s t : State} {e : Exception} {p : Word} (h : takeException e p s = .next t) :
    Did i s t := .inl ⟨e, p, s, untouched_self i s, h⟩

/-- An advance is a `pc` effect. -/
theorem pcEffect_advance {i : Instr} {s t : State} (h : t.pc = s.pc + 4#32) : PcEffect i s t :=
  .inl ⟨0#32, by simp [h]⟩

theorem did_writeAndAdvance {i : Instr} {s t : State} {r : RegNo} {v : Word} (h : writeAndAdvance r v s = .next t)
    (hr : r ∈ destinations i) : Did i s t := by
  cases h
  refine .inr ⟨by simp, by simp, by simpa using writeReg_slot0 s r v, fun q hq => ?_, .inl ⟨by simp, .inl (by simp)⟩,
    .inl (by simp [keepsControl]), pcEffect_advance (by simp)⟩
  rw [reg_congr (t := (s.writeReg r v).advance) (s := s.writeReg r v) (by simp), reg_writeReg, if_neg]
  rintro ⟨rfl, -⟩
  exact hq hr

theorem did_branchIf {i : Instr} {s t : State} {b : Bool} {s10 : BitVec 10} (h : branchIf b s10 s = .next t) :
    Did i s t := by
  cases h
  refine .inr ⟨rfl, rfl, rfl, fun _ _ => rfl, .inl ⟨rfl, .inl rfl⟩, .inl ⟨rfl, rfl, rfl, rfl, rfl⟩, .inl ?_⟩
  cases b
  · exact ⟨0#32, by simp [following]⟩
  · exact ⟨sext s10, rfl⟩

theorem did_loadInto {i : Instr} {s t : State} {ra : RegNo} {x : Extend} {d : DataAccess}
    (h : loadInto ra x d s = .next t) (hr : ra ∈ destinations i) : Did i s t := by
  rcases withAccess_next h with ⟨-, h⟩ | ⟨-, h⟩
  · exact did_writeAndAdvance h hr
  · exact did_exception h

theorem did_storeFrom {i : Instr} {s t : State} {ra : RegNo} {d : DataAccess} (h : storeFrom ra d s = .next t)
    (hw : writesMemory i = true) (hd : dataAccess i s = some d) : Did i s t := by
  rcases withAccess_next h with ⟨hc, h⟩ | ⟨-, h⟩
  · cases h
    exact .inr ⟨rfl, rfl, rfl, fun _ _ => rfl, .inr ⟨d, s.reg ra, hw, hd, checkAccess_aligned hc, rfl, rfl⟩,
      .inl ⟨rfl, rfl, rfl, rfl, rfl⟩, pcEffect_advance rfl⟩
  · exact did_exception h

theorem did_swapWith {i : Instr} {s t : State} {ra : RegNo} {d : DataAccess} (h : swapWith ra d s = .next t)
    (hw : writesMemory i = true) (hd : dataAccess i s = some d) (hr : ra ∈ destinations i) : Did i s t := by
  rcases withAccess_next h with ⟨hc, h⟩ | ⟨-, h⟩
  · cases h
    refine .inr ⟨by simp, by simp, ?_, fun q hq => ?_,
      .inr ⟨d, s.reg ra, hw, hd, checkAccess_aligned hc, by simp, by simp⟩, .inl (by simp [keepsControl]),
      pcEffect_advance (by simp)⟩
    · rw [advance_regs, writeReg_slot0, storeAt_regs]
    · rw [reg_congr (s := (s.storeAt d (s.reg ra)).writeReg ra (s.loaded d)) (by simp), reg_writeReg, if_neg]
      · rfl
      · rintro ⟨rfl, -⟩
        exact hq hr
  · exact did_exception h

theorem did_commandUnit {i : Instr} {s t : State} {u : CoreUnit} {cmd : BitVec 4} {a : Word}
    (h : commandUnit u cmd a s = .next t) : Did i s t := by
  unfold commandUnit at h
  split at h
  · cases h
  · exact did_exception h
  · next p _ =>
    cases h
    cases p
    · exact .inr ⟨rfl, rfl, rfl, fun _ _ => rfl, .inl ⟨rfl, .inl rfl⟩, .inl ⟨rfl, rfl, rfl, rfl, rfl⟩,
        pcEffect_advance rfl⟩
    · exact .inr ⟨rfl, rfl, rfl, fun _ _ => rfl, .inl ⟨rfl, .inr rfl⟩, .inl ⟨rfl, rfl, rfl, rfl, rfl⟩,
        pcEffect_advance rfl⟩

theorem did_privileged {i : Instr} {s t : State} {o : Result} (h : privileged s o = .next t)
    (go : s.sr.sm = true → o = .next t → Did i s t) : Did i s t := by
  rcases privileged_next h with ⟨hs, h⟩ | ⟨-, h⟩
  · exact go hs h
  · exact did_exception h

/-- A state that differs in nothing but `pc` (advanced), `power`, `moduleOut` and `freeNext`. -/
theorem did_quiet {i : Instr} {s t : State} (h : t.pc = s.pc + 4#32 ∧ t.regs = s.regs ∧ t.cfg = s.cfg ∧
    t.inputs = s.inputs ∧ t.mem = s.mem ∧ t.stored = s.stored ∧ keepsControl s t) : Did i s t :=
  .inr ⟨h.2.2.1, h.2.2.2.1, by rw [h.2.1], fun r _ => reg_congr h.2.1 r,
    .inl ⟨h.2.2.2.2.1, .inl h.2.2.2.2.2.1⟩, .inl h.2.2.2.2.2.2, pcEffect_advance h.1⟩

theorem did_mvz {ra rb rc : RegNo} {s t : State} (h : execMvz ra rb rc s = .next t) : Did (.mvz ra rb rc) s t := by
  unfold execMvz at h
  split at h
  · exact did_writeAndAdvance h (by simp [destinations])
  · cases h; exact did_quiet ⟨rfl, rfl, rfl, rfl, rfl, rfl, rfl, rfl, rfl, rfl, rfl⟩

theorem did_mvnz {ra rb rc : RegNo} {s t : State} (h : execMvnz ra rb rc s = .next t) : Did (.mvnz ra rb rc) s t := by
  unfold execMvnz at h
  split at h
  · exact did_writeAndAdvance h (by simp [destinations])
  · cases h; exact did_quiet ⟨rfl, rfl, rfl, rfl, rfl, rfl, rfl, rfl, rfl, rfl, rfl⟩

theorem did_mulu {rh ra rb rc : RegNo} {s t : State} (h : execMulu rh ra rb rc s = .next t) :
    Did (.mulu rh ra rb rc) s t := by
  unfold execMulu at h
  split at h
  · cases h
  · cases h
    refine .inr ⟨by simp, by simp, ?_, fun q hq => ?_, .inl ⟨by simp, .inl (by simp)⟩,
      .inl (by simp [keepsControl]), pcEffect_advance (by simp)⟩
    · rw [advance_regs, writeReg_slot0, writeReg_slot0]
    · simp only [destinations, List.mem_cons, List.not_mem_nil, or_false, not_or] at hq
      rw [reg_congr (advance_regs _), reg_writeReg, if_neg (fun h => hq.2 h.1), reg_writeReg,
        if_neg (fun h => hq.1 h.1)]

theorem did_cld {ra : RegNo} {id : BitVec 3} {s10 : BitVec 10} {s t : State} (h : execCld ra id s10 s = .next t) :
    Did (.cld ra id s10) s t := by
  unfold execCld at h
  split at h
  · cases h
  · dsimp only at h
    split at h
    · cases h
    · exact did_exception h
    · have hd := did_writeAndAdvance (i := .cld ra id s10) h (by simp [destinations]); exact hd
    · have hd := did_writeAndAdvance (i := .cld ra id s10) h (by simp [destinations]); exact hd

theorem did_cst {ra : RegNo} {id : BitVec 3} {s10 : BitVec 10} {s t : State} (h : execCst ra id s10 s = .next t) :
    Did (.cst ra id s10) s t := by
  unfold execCst at h
  split at h
  · cases h
  · dsimp only at h
    split at h
    · cases h
    · exact did_exception h
    · cases h; exact did_quiet ⟨rfl, rfl, rfl, rfl, rfl, rfl, rfl, rfl, rfl, rfl, rfl⟩

theorem did_rcr {ra : RegNo} {cr : BitVec 5} {s t : State} (h : execRcr ra cr s = .next t) : Did (.rcr ra cr) s t :=
  did_privileged h fun _ h => by
    split at h
    · cases h
    · exact did_writeAndAdvance h (by simp [destinations])

theorem did_wcr {ra : RegNo} {cr : BitVec 5} {s t : State} (h : execWcr ra cr s = .next t) : Did (.wcr ra cr) s t :=
  did_privileged h fun hs h => by
    split at h
    · cases h
    · next c _ =>
      cases h
      cases c <;>
        exact .inr ⟨rfl, rfl, rfl, fun _ _ => rfl, .inl ⟨rfl, .inl rfl⟩, .inr ⟨hs, .inl ⟨⟨_, _, rfl⟩, hs⟩⟩,
          pcEffect_advance rfl⟩

theorem did_rte {s t : State} (h : execRte s = .next t) : Did .rte s t :=
  did_privileged h fun hs h => by
    cases h
    unfold returnFromException
    split <;>
      exact .inr ⟨rfl, rfl, rfl, fun _ _ => rfl, .inl ⟨rfl, .inl rfl⟩, .inr ⟨hs, .inr rfl⟩, .inr (.inr rfl)⟩

theorem did_sleep {s t : State} (h : execSleep s = .next t) : Did .sleep s t :=
  did_privileged h fun _ h => by
    split at h
    · cases h; exact did_quiet ⟨rfl, rfl, rfl, rfl, rfl, rfl, rfl, rfl, rfl, rfl, rfl⟩
    · cases h; exact did_quiet ⟨rfl, rfl, rfl, rfl, rfl, rfl, rfl, rfl, rfl, rfl, rfl⟩
    · split at h
      · cases h; exact did_quiet ⟨rfl, rfl, rfl, rfl, rfl, rfl, rfl, rfl, rfl, rfl, rfl⟩
      · cases h

theorem did_trap {ra : RegNo} {s10 : BitVec 10} {s t : State} (h : execTrap ra s10 s = .next t) :
    Did (.trap ra s10) s t := by
  refine .inl ⟨_, _, _, ⟨by simp [keepsControl], by simp, by simp, by simp, by simp, by simp, writeReg_slot0 _ _ _,
    fun r hr => ?_⟩, h⟩
  rw [reg_writeReg, if_neg]
  rintro ⟨rfl, -⟩
  simp [destinations] at hr

theorem did_sbrk {s t : State} (h : execSbrk s = .next t) : Did .sbrk s t := by
  unfold execSbrk at h
  split at h <;> exact did_exception h

theorem did_j {ra : RegNo} {s21 : BitVec 21} {s t : State} (h : execJ ra s21 s = .next t) : Did (.j ra s21) s t := by
  cases h
  refine .inr ⟨by simp, by simp, by simpa using writeReg_slot0 s ra _, fun q hq => ?_, .inl ⟨by simp, .inl (by simp)⟩,
    .inl (by simp [keepsControl]), .inl ⟨sext s21, rfl⟩⟩
  rw [reg_congr (withPc_regs _ _), reg_writeReg, if_neg]
  rintro ⟨rfl, -⟩
  simp [destinations] at hq

theorem did_ja {ra rb : RegNo} {u10 : BitVec 10} {s t : State} (h : execJa ra rb u10 s = .next t) :
    Did (.ja ra rb u10) s t := by
  cases h
  refine .inr ⟨by simp, by simp, by simpa using writeReg_slot0 s ra _, fun q hq => ?_, .inl ⟨by simp, .inl (by simp)⟩,
    .inl (by simp [keepsControl]), .inr (.inl ⟨_, _, _, rfl⟩)⟩
  rw [reg_congr (withPc_regs _ _), reg_writeReg, if_neg]
  rintro ⟨rfl, -⟩
  simp [destinations] at hq

/-- What `exec` can do when it answers a next state. -/
theorem exec_did {i : Instr} {s t : State} (h : exec i s = .next t) : Did i s t := by
  cases i
  case j => exact did_j h
  case ja => exact did_ja h
  case mulu => exact did_mulu h
  case mul => cases h
  case mvz => exact did_mvz h
  case mvnz => exact did_mvnz h
  case swap => exact did_swapWith h rfl rfl (by simp [destinations])
  case cld => exact did_cld h
  case cst => exact did_cst h
  case rcr => exact did_rcr h
  case wcr => exact did_wcr h
  case trap => exact did_trap h
  case sbrk => exact did_sbrk h
  case rte => exact did_rte h
  case sleep => exact did_sleep h
  case itlb => exact did_privileged h fun _ h => did_commandUnit h
  case dtlb => exact did_privileged h fun _ h => did_commandUnit h
  case icache => exact did_commandUnit h
  case dcache => exact did_commandUnit h
  all_goals first
    | exact did_branchIf h
    | exact did_storeFrom h rfl rfl
    | exact did_loadInto h (by simp [destinations])
    | exact did_writeAndAdvance h (by simp [destinations])

/-- What one step can do when it answers a next state, on the state with its input record consumed. -/
theorem step_did {s t : State} (h : step s = .next t) :
    debugBootstrap (consumeInput s) = .next t ∨ manualReset (consumeInput s) = .next t ∨ t = consumeInput s ∨
      (∃ e p u, keepsControl s u ∧ u.mem = s.mem ∧ u.stored = s.stored ∧ u.cfg = s.cfg ∧ u.inputs = s.inputs.tail ∧
        u.regs = s.regs ∧ takeException e p u = .next t) ∨
      ∃ w i, fetches s w ∧ decode w = .ok i ∧ exec i (consumeInput s) = .next t := by
  have entry {e : Exception} {p : Word} {u : State} (hu : takeException e p u = .next t)
      (h : keepsControl s u ∧ u.mem = s.mem ∧ u.stored = s.stored ∧ u.cfg = s.cfg ∧ u.inputs = s.inputs.tail ∧
        u.regs = s.regs) :
      ∃ e p u, keepsControl s u ∧ u.mem = s.mem ∧ u.stored = s.stored ∧ u.cfg = s.cfg ∧ u.inputs = s.inputs.tail ∧
        u.regs = s.regs ∧ takeException e p u = .next t :=
    ⟨e, p, u, h.1, h.2.1, h.2.2.1, h.2.2.2.1, h.2.2.2.2.1, h.2.2.2.2.2, hu⟩
  have same : keepsControl s (consumeInput s) ∧ (consumeInput s).mem = s.mem ∧ (consumeInput s).stored = s.stored ∧
      (consumeInput s).cfg = s.cfg ∧ (consumeInput s).inputs = s.inputs.tail ∧ (consumeInput s).regs = s.regs :=
    ⟨⟨rfl, rfl, rfl, rfl, rfl⟩, rfl, rfl, rfl, rfl, rfl⟩
  have waits {inp : StepInput} (h : waitForInterrupt inp (consumeInput s) = .next t) : t = consumeInput s ∨
      ∃ e p u, keepsControl s u ∧ u.mem = s.mem ∧ u.stored = s.stored ∧ u.cfg = s.cfg ∧ u.inputs = s.inputs.tail ∧
        u.regs = s.regs ∧ takeException e p u = .next t := by
    unfold waitForInterrupt at h
    split at h
    · split at h
      · exact .inr (entry h ⟨⟨rfl, rfl, rfl, rfl, rfl⟩, rfl, rfl, rfl, rfl, rfl⟩)
      · cases h
    · cases h; exact .inl rfl
  unfold step cycle at h
  simp only at h
  split at h
  · exact .inl h
  split at h
  · exact .inr (.inl h)
  refine .inr (.inr ?_)
  split at h
  · next hp =>
    refine .inr ?_
    unfold runAtPc at h
    split at h
    · cases h
    next ha =>
    have ha : ¬pcMisaligned s = true := ha
    split at h
    · exact .inl (entry h same)
    split at h
    · exact .inl (entry h same)
    · cases h
    next w hf =>
    unfold runWord at h
    split at h
    · next i hi =>
      have hfetch : fetches s w := ⟨hp, by simpa [State.pcAligned] using ha, hf⟩
      unfold runDecoded at h
      split at h
      · exact .inr ⟨w, i, hfetch, hi, h⟩
      split at h
      · next u hu =>
        split at h
        · exact .inl (entry h same)
        split at h
        · exact .inl (entry h same)
        · cases h; exact .inr ⟨w, i, hfetch, hi, hu⟩
      · cases h
      · cases h
    · exact .inl (entry h same)
    · cases h
    · cases h
  · rcases waits h with h | h
    · exact .inl h
    · exact .inr (.inl h)
  · rcases waits h with h | h
    · exact .inl h
    · exact .inr (.inl h)

end Sys2Proof.Machine
end

