-- ==== Sys2Proof/Laws/PerInstr.lean ====
section
/-! SUPPORT. Per instruction: the encoder's word carries the row's code under the row's mask (30_encoding.md R111). -/

namespace Sys2Proof.Laws.EncodingMatchesRow

/-- The word of the instruction lies in the instruction's row of the opcode table. -/
def Statement (i : Instr) : Prop := encode i &&& i.row.mask = i.row.code

/-- Masking field by field. -/
theorem and_parts {n m : Nat} {a c x : BitVec n} {b d y : BitVec m} (h : a &&& c = x) (h' : b &&& d = y) :
    (a ++ b) &&& (c ++ d) = x ++ y := by
  subst h h'
  apply BitVec.eq_of_getLsbD_eq
  intro k _
  simp only [BitVec.getLsbD_and, BitVec.getLsbD_append]
  split <;> rfl

theorem kept {n : Nat} (x : BitVec n) : x &&& BitVec.allOnes n = x := BitVec.and_allOnes

theorem dropped {n : Nat} (x : BitVec n) : x &&& 0#n = 0#n := BitVec.and_zero

theorem low4 (cmd : BitVec 4) : (0b0#1 ++ cmd) &&& 0b10000#5 = 0#5 :=
  and_parts (c := 1#1) (d := 0#4) (kept _) (dropped _)

theorem low3 (id : BitVec 3) : (0b00#2 ++ id) &&& 0b11000#5 = 0#5 :=
  and_parts (c := 0b11#2) (d := 0#3) (kept _) (dropped _)

theorem six (op1 : BitVec 6) (a b : BitVec 5) (op2 : BitVec 6) (h l : BitVec 5) :
    wordSix op1 a b op2 h l &&& 0xfc00fc00#32 = wordSix op1 0#5 0#5 op2 0#5 0#5 :=
  and_parts (and_parts (and_parts (and_parts (and_parts (c := 0b111111#6) (d := 0#5) (kept _) (dropped _))
    (d := 0#5) (dropped _)) (d := 0b111111#6) (kept _)) (d := 0#5) (dropped _)) (d := 0#5) (dropped _)

theorem sixShift (op1 : BitVec 6) (a b : BitVec 5) (op2 : BitVec 6) (l : BitVec 5) :
    wordSix op1 a b op2 0#5 l &&& 0xfc00ffe0#32 = wordSix op1 0#5 0#5 op2 0#5 0#5 :=
  and_parts (and_parts (and_parts (and_parts (and_parts (c := 0b111111#6) (d := 0#5) (kept _) (dropped _))
    (d := 0#5) (dropped _)) (d := 0b111111#6) (kept _)) (d := 0b11111#5) (kept _)) (d := 0#5) (dropped _)

theorem sixCmd (op1 : BitVec 6) (cmd : BitVec 4) (b : BitVec 5) (op2 : BitVec 6) (h l : BitVec 5) :
    wordSix op1 (0b0#1 ++ cmd) b op2 h l &&& 0xfe00fc00#32 = wordSix op1 0#5 0#5 op2 0#5 0#5 :=
  and_parts (and_parts (and_parts (and_parts (and_parts (c := 0b111111#6) (d := 0b10000#5) (kept _) (low4 _))
    (d := 0#5) (dropped _)) (d := 0b111111#6) (kept _)) (d := 0#5) (dropped _)) (d := 0#5) (dropped _)

theorem ten (op1 : BitVec 6) (a b : BitVec 5) (op2 : BitVec 6) (i : BitVec 10) :
    wordI10 op1 a b op2 i &&& 0xfc00fc00#32 = wordI10 op1 0#5 0#5 op2 0#10 :=
  and_parts (and_parts (and_parts (and_parts (c := 0b111111#6) (d := 0#5) (kept _) (dropped _))
    (d := 0#5) (dropped _)) (d := 0b111111#6) (kept _)) (d := 0#10) (dropped _)

theorem tenCmd (op1 : BitVec 6) (cmd : BitVec 4) (b : BitVec 5) (op2 : BitVec 6) (i : BitVec 10) :
    wordI10 op1 (0b0#1 ++ cmd) b op2 i &&& 0xfe00fc00#32 = wordI10 op1 0#5 0#5 op2 0#10 :=
  and_parts (and_parts (and_parts (and_parts (c := 0b111111#6) (d := 0b10000#5) (kept _) (low4 _))
    (d := 0#5) (dropped _)) (d := 0b111111#6) (kept _)) (d := 0#10) (dropped _)

theorem tenId (op1 : BitVec 6) (a : BitVec 5) (id : BitVec 3) (op2 : BitVec 6) (i : BitVec 10) :
    wordI10 op1 a (0b00#2 ++ id) op2 i &&& 0xfc18fc00#32 = wordI10 op1 0#5 0#5 op2 0#10 :=
  and_parts (and_parts (and_parts (and_parts (c := 0b111111#6) (d := 0#5) (kept _) (dropped _))
    (d := 0b11000#5) (low3 _)) (d := 0b111111#6) (kept _)) (d := 0#10) (dropped _)

theorem sixteen (op1 : BitVec 6) (a b : BitVec 5) (i : BitVec 16) :
    wordI16 op1 a b i &&& 0xfc000000#32 = wordI16 op1 0#5 0#5 0#16 :=
  and_parts (and_parts (and_parts (c := 0b111111#6) (d := 0#5) (kept _) (dropped _)) (d := 0#5) (dropped _))
    (d := 0#16) (dropped _)

theorem twentyOne (op1 : BitVec 6) (a : BitVec 5) (i : BitVec 21) :
    wordI21 op1 a i &&& 0xfc000000#32 = wordI21 op1 0#5 0#21 :=
  and_parts (and_parts (c := 0b111111#6) (d := 0#5) (kept _) (dropped _)) (d := 0#21) (dropped _)

theorem lhi (ra : RegNo) (u21 : BitVec 21) : Statement (.lhi ra u21) := (twentyOne ..).trans rfl
theorem j (ra : RegNo) (s21 : BitVec 21) : Statement (.j ra s21) := (twentyOne ..).trans rfl
theorem ja (ra rb : RegNo) (u10 : BitVec 10) : Statement (.ja ra rb u10) := (ten ..).trans rfl
theorem beq (rb ra : RegNo) (s10 : BitVec 10) : Statement (.beq rb ra s10) := (ten ..).trans rfl
theorem bne (rb ra : RegNo) (s10 : BitVec 10) : Statement (.bne rb ra s10) := (ten ..).trans rfl
theorem blt (rb ra : RegNo) (s10 : BitVec 10) : Statement (.blt rb ra s10) := (ten ..).trans rfl
theorem bge (rb ra : RegNo) (s10 : BitVec 10) : Statement (.bge rb ra s10) := (ten ..).trans rfl
theorem bltu (rb ra : RegNo) (s10 : BitVec 10) : Statement (.bltu rb ra s10) := (ten ..).trans rfl
theorem bgeu (rb ra : RegNo) (s10 : BitVec 10) : Statement (.bgeu rb ra s10) := (ten ..).trans rfl
theorem beqi (rb : RegNo) (s5 : BitVec 5) (s10 : BitVec 10) : Statement (.beqi rb s5 s10) := (ten ..).trans rfl
theorem bnei (rb : RegNo) (s5 : BitVec 5) (s10 : BitVec 10) : Statement (.bnei rb s5 s10) := (ten ..).trans rfl
theorem bequi (rb : RegNo) (u5 : BitVec 5) (s10 : BitVec 10) : Statement (.bequi rb u5 s10) := (ten ..).trans rfl
theorem bneui (rb : RegNo) (u5 : BitVec 5) (s10 : BitVec 10) : Statement (.bneui rb u5 s10) := (ten ..).trans rfl
theorem blti (rb : RegNo) (s5 : BitVec 5) (s10 : BitVec 10) : Statement (.blti rb s5 s10) := (ten ..).trans rfl
theorem bgei (rb : RegNo) (s5 : BitVec 5) (s10 : BitVec 10) : Statement (.bgei rb s5 s10) := (ten ..).trans rfl
theorem bltui (rb : RegNo) (u5 : BitVec 5) (s10 : BitVec 10) : Statement (.bltui rb u5 s10) := (ten ..).trans rfl
theorem bgeui (rb : RegNo) (u5 : BitVec 5) (s10 : BitVec 10) : Statement (.bgeui rb u5 s10) := (ten ..).trans rfl
theorem add (ra rb rc : RegNo) : Statement (.add ra rb rc) := (six ..).trans rfl
theorem addi (ra rb : RegNo) (s10 : BitVec 10) : Statement (.addi ra rb s10) := (ten ..).trans rfl
theorem sub (ra rb rc : RegNo) : Statement (.sub ra rb rc) := (six ..).trans rfl
theorem mulu (rh ra rb rc : RegNo) : Statement (.mulu rh ra rb rc) := (six ..).trans rfl
theorem mul (rh ra rb rc : RegNo) : Statement (.mul rh ra rb rc) := (six ..).trans rfl
theorem seq (ra rb rc : RegNo) : Statement (.seq ra rb rc) := (six ..).trans rfl
theorem sne (ra rb rc : RegNo) : Statement (.sne ra rb rc) := (six ..).trans rfl
theorem slt (ra rb rc : RegNo) : Statement (.slt ra rb rc) := (six ..).trans rfl
theorem sge (ra rb rc : RegNo) : Statement (.sge ra rb rc) := (six ..).trans rfl
theorem sltu (ra rb rc : RegNo) : Statement (.sltu ra rb rc) := (six ..).trans rfl
theorem sgeu (ra rb rc : RegNo) : Statement (.sgeu ra rb rc) := (six ..).trans rfl
theorem and (ra rb rc : RegNo) : Statement (.and ra rb rc) := (six ..).trans rfl
theorem or (ra rb rc : RegNo) : Statement (.or ra rb rc) := (six ..).trans rfl
theorem xor (ra rb rc : RegNo) : Statement (.xor ra rb rc) := (six ..).trans rfl
theorem andn (ra rb rc : RegNo) : Statement (.andn ra rb rc) := (six ..).trans rfl
theorem andi (ra rb : RegNo) (s16 : BitVec 16) : Statement (.andi ra rb s16) := (sixteen ..).trans rfl
theorem ori (ra rb : RegNo) (s16 : BitVec 16) : Statement (.ori ra rb s16) := (sixteen ..).trans rfl
theorem xori (ra rb : RegNo) (s16 : BitVec 16) : Statement (.xori ra rb s16) := (sixteen ..).trans rfl
theorem sll (ra rb rc : RegNo) : Statement (.sll ra rb rc) := (six ..).trans rfl
theorem slr (ra rb rc : RegNo) : Statement (.slr ra rb rc) := (six ..).trans rfl
theorem sar (ra rb rc : RegNo) : Statement (.sar ra rb rc) := (six ..).trans rfl
theorem slli (ra rb : RegNo) (u5 : BitVec 5) : Statement (.slli ra rb u5) := (sixShift ..).trans rfl
theorem slri (ra rb : RegNo) (u5 : BitVec 5) : Statement (.slri ra rb u5) := (sixShift ..).trans rfl
theorem sari (ra rb : RegNo) (u5 : BitVec 5) : Statement (.sari ra rb u5) := (sixShift ..).trans rfl
theorem lr8 (ra rb rc : RegNo) : Statement (.lr8 ra rb rc) := (six ..).trans rfl
theorem lr8u (ra rb rc : RegNo) : Statement (.lr8u ra rb rc) := (six ..).trans rfl
theorem lr16 (ra rb rc : RegNo) : Statement (.lr16 ra rb rc) := (six ..).trans rfl
theorem lr16u (ra rb rc : RegNo) : Statement (.lr16u ra rb rc) := (six ..).trans rfl
theorem lr32 (ra rb rc : RegNo) : Statement (.lr32 ra rb rc) := (six ..).trans rfl
theorem lx16 (ra rb rc : RegNo) : Statement (.lx16 ra rb rc) := (six ..).trans rfl
theorem lx16u (ra rb rc : RegNo) : Statement (.lx16u ra rb rc) := (six ..).trans rfl
theorem lx32 (ra rb rc : RegNo) : Statement (.lx32 ra rb rc) := (six ..).trans rfl
theorem ld8 (ra rb : RegNo) (s10 : BitVec 10) : Statement (.ld8 ra rb s10) := (ten ..).trans rfl
theorem ld8u (ra rb : RegNo) (s10 : BitVec 10) : Statement (.ld8u ra rb s10) := (ten ..).trans rfl
theorem ld16 (ra rb : RegNo) (s10 : BitVec 10) : Statement (.ld16 ra rb s10) := (ten ..).trans rfl
theorem ld16u (ra rb : RegNo) (s10 : BitVec 10) : Statement (.ld16u ra rb s10) := (ten ..).trans rfl
theorem ld32 (ra rb : RegNo) (s10 : BitVec 10) : Statement (.ld32 ra rb s10) := (ten ..).trans rfl
theorem sr8 (ra rb rc : RegNo) : Statement (.sr8 ra rb rc) := (six ..).trans rfl
theorem sr16 (ra rb rc : RegNo) : Statement (.sr16 ra rb rc) := (six ..).trans rfl
theorem sr32 (ra rb rc : RegNo) : Statement (.sr32 ra rb rc) := (six ..).trans rfl
theorem sx16 (ra rb rc : RegNo) : Statement (.sx16 ra rb rc) := (six ..).trans rfl
theorem sx32 (ra rb rc : RegNo) : Statement (.sx32 ra rb rc) := (six ..).trans rfl
theorem sd8 (ra rb : RegNo) (s10 : BitVec 10) : Statement (.sd8 ra rb s10) := (ten ..).trans rfl
theorem sd16 (ra rb : RegNo) (s10 : BitVec 10) : Statement (.sd16 ra rb s10) := (ten ..).trans rfl
theorem sd32 (ra rb : RegNo) (s10 : BitVec 10) : Statement (.sd32 ra rb s10) := (ten ..).trans rfl
theorem mvz (ra rb rc : RegNo) : Statement (.mvz ra rb rc) := (six ..).trans rfl
theorem mvnz (ra rb rc : RegNo) : Statement (.mvnz ra rb rc) := (six ..).trans rfl
theorem csb (ra rb : RegNo) : Statement (.csb ra rb) := (six ..).trans rfl
theorem brev (ra rb : RegNo) : Statement (.brev ra rb) := (six ..).trans rfl
theorem swap (ra rb : RegNo) (s10 : BitVec 10) : Statement (.swap ra rb s10) := (ten ..).trans rfl
theorem cld (ra : RegNo) (id : BitVec 3) (s10 : BitVec 10) : Statement (.cld ra id s10) := (tenId ..).trans rfl
theorem cst (ra : RegNo) (id : BitVec 3) (s10 : BitVec 10) : Statement (.cst ra id s10) := (tenId ..).trans rfl
theorem rcr (ra : RegNo) (cr : BitVec 5) : Statement (.rcr ra cr) := (six ..).trans rfl
theorem wcr (ra : RegNo) (cr : BitVec 5) : Statement (.wcr ra cr) := (six ..).trans rfl
theorem trap (ra : RegNo) (s10 : BitVec 10) : Statement (.trap ra s10) := (ten ..).trans rfl
theorem sbrk : Statement (.sbrk) := (six ..).trans rfl
theorem rte : Statement (.rte) := (six ..).trans rfl
theorem sleep : Statement (.sleep) := (six ..).trans rfl
theorem itlb (cmd : BitVec 4) (rb : RegNo) : Statement (.itlb cmd rb) := (sixCmd ..).trans rfl
theorem dtlb (cmd : BitVec 4) (rb : RegNo) : Statement (.dtlb cmd rb) := (sixCmd ..).trans rfl
theorem icache (cmd : BitVec 4) (rb : RegNo) (s10 : BitVec 10) : Statement (.icache cmd rb s10) := (tenCmd ..).trans rfl
theorem dcache (cmd : BitVec 4) (rb : RegNo) (s10 : BitVec 10) : Statement (.dcache cmd rb s10) := (tenCmd ..).trans rfl

end Sys2Proof.Laws.EncodingMatchesRow
end

