-- ==== Sys2Proof/Machine/Abi.lean ====
section
/-! DEFINITION. The calling convention of 50_abi.md: what a program's environment may assume of compiled code. "Nothing in it
is enforced by the processor": no part of the machine uses it. -/

namespace Sys2Proof.Machine.Abi

/-- The stack pointer, frame pointer, PIC and linkage registers (R261). -/
def sp : RegNo := 1#5
/-- Frame pointer (R261). -/
def fp : RegNo := 16#5
/-- PIC register (R261). -/
def pic : RegNo := 17#5
/-- Linkage register (R261). -/
def linkage : RegNo := 18#5
/-- The register reserved for long branches (R261). -/
def scratch : RegNo := 19#5
/-- Static chain register (R261). -/
def staticChain : RegNo := 20#5

/-- Who keeps a register across a call (R261). -/
inductive Saver
  | zero
  | callee
  | caller
  | reserved
deriving DecidableEq, Repr

/-- Table 4-1 (R261); R19 is "Reserved for assembler handling long branch". -/
def saverOf (r : RegNo) : Saver :=
  let n := r.toNat
  if n = 0 then .zero
  else if n = 1 then .callee
  else if n ≤ 7 then .caller
  else if n ≤ 17 then .callee
  else if n = 18 then .caller
  else if n = 19 then .reserved
  else if n ≤ 21 then .caller
  else if n ≤ 27 then .callee
  else .caller

/-- "The stack pointer must be aligned to a 4 byte boundary on entry to a function" (R262). -/
def spAligned (v : Word) : Bool := v.toNat % 4 = 0

/-- The scalar types of Table 4-2 (R265). -/
inductive CType
  | char
  | short
  | int
  | enum
  | long
  | longLong
  | float
  | double
  | longDouble
  | pointer
deriving DecidableEq, Repr

/-- The size in bytes, which is also the alignment (R265). -/
def CType.size : CType → Nat
  | .char => 1
  | .short => 2
  | .int | .enum | .long | .float | .pointer => 4
  | .longLong | .double | .longDouble => 8

/-- The least multiple of `al` from `n` up. -/
def alignUp (n al : Nat) : Nat := (n + al - 1) / al * al

/-- A member of a structure (R266, R267). -/
inductive Member
  | scalar (t : CType)
  | bits (t : CType) (width : Nat)
deriving DecidableEq, Repr

/-- Where a member lies: a byte offset, or the bits `low .. low + width - 1` (0 the least significant) of a unit. -/
inductive Place
  | at (offset : Nat)
  | within (offset low width : Nat)
deriving DecidableEq, Repr

/-- The storage unit a following bit-field may share: its offset, its size in bytes, its bits in use. -/
structure Unit where
  offset : Nat
  size : Nat
  used : Nat
deriving DecidableEq, Repr

/-- The place of a bit-field in its unit, from the right on little-endian, from the left on big-endian (R267). -/
def bitPlace (e : Endian) (u : Unit) (width : Nat) : Place :=
  match e with
  | .little => .within u.offset u.used width
  | .big => .within u.offset (8 * u.size - u.used - width) width

/-- Members in declaration order from the lowest address up (R266, R267), from offset `next`. R267 gives a zero-length
bit-field an effect on "the next bit-field" only; that it also moves a following ordinary member up to its alignment, and
has its own place there, is the model's choice (DESIGN CHOICE, log 37). -/
def layoutFrom (e : Endian) : Nat → Option Unit → List Member → List Place
  | _, _, [] => []
  | next, _, .scalar t :: rest =>
    let o := alignUp next t.size
    .at o :: layoutFrom e (o + t.size) none rest
  | next, open?, .bits t width :: rest =>
    if width = 0 then
      let o := alignUp next t.size
      .within o 0 0 :: layoutFrom e o none rest
    else
      match open?.filter fun u => u.size = t.size && u.used + width ≤ 8 * t.size with
      | some u => bitPlace e u width :: layoutFrom e next (some { u with used := u.used + width }) rest
      | none =>
        let u : Unit := ⟨alignUp next t.size, t.size, 0⟩
        bitPlace e u width :: layoutFrom e (u.offset + u.size) (some { u with used := width }) rest

/-- The layout of a structure (R266, R267). -/
def structLayout (e : Endian) (ms : List Member) : List Place := layoutFrom e 0 none ms

/-- The registers of a scalar result, the high part first (R268). -/
def returnRegs (e : Endian) (t : CType) : List RegNo :=
  match t.size, e with
  | 8, .big => [2#5, 3#5]
  | 8, .little => [3#5, 2#5]
  | _, _ => [2#5]

/-- Where a word of an argument is passed (R269). -/
inductive ArgPlace
  | register (r : RegNo)
  | stack (offset : Nat)
deriving DecidableEq, Repr

/-- Arguments of one word each: r2 to r7, then sp + 0, sp + 4, … (R269). `k` counts from 0. -/
def argWord (k : Nat) : ArgPlace := if k < 6 then .register (BitVec.ofNat 5 (k + 2)) else .stack (4 * (k - 6))

/-- The words of a structure argument (R270): consecutive from word `k`, the rest on the stack. -/
def structArg (k bytes : Nat) : List ArgPlace := (List.range ((bytes + 3) / 4)).map fun j => argWord (k + j)

/-- The address a variadic callee saves parameter register `r` at (R271): R2 at entry SP - 24, …, R7 at entry SP - 4. -/
def prsaAddress (entrySp : Word) (r : RegNo) : Word := entrySp - 24#32 + 4#32 * ((r.setWidth 32 : Word) - 2#32)

end Sys2Proof.Machine.Abi
end

