-- ==== Sys2Proof/WellFormed.lean ====
section
/-! DEFINITION. The operand conditions the spec puts on an instruction. A term outside them still encodes and decodes;
what it does is one of the named stops of Machine/State.lean. -/

namespace Sys2Proof

/-- The index names one of SR, ESR, EPC, DSR, DPC (10_state.md R31). -/
def namesControlRegister (cr : BitVec 5) : Bool :=
  cr = 0#5 || cr = 1#5 || cr = 2#5 || cr = 5#5 || cr = 6#5

/-- The module register number is "in the range of 0 ~ 511" (49_system.md R241). -/
def namesModuleRegister (s10 : BitVec 10) : Bool := !s10.msb

/-- The two result registers of MULU differ, or both are R0 (43_arithmetic.md R164). -/
def distinctResults (rh ra : RegNo) : Bool := rh ≠ ra || ra = 0#5

/-- The instruction meets the operand conditions of its page. -/
def Instr.wf : Instr → Bool
  | .mulu rh ra _ _ => distinctResults rh ra
  | .rcr _ cr | .wcr _ cr => namesControlRegister cr
  | .cld _ _ s10 | .cst _ _ s10 => namesModuleRegister s10
  | .lhi _ _ | .j _ _ | .ja _ _ _ => true
  | .beq _ _ _ | .bne _ _ _ | .blt _ _ _ | .bge _ _ _ | .bltu _ _ _ | .bgeu _ _ _ => true
  | .beqi _ _ _ | .bnei _ _ _ | .bequi _ _ _ | .bneui _ _ _ => true
  | .blti _ _ _ | .bgei _ _ _ | .bltui _ _ _ | .bgeui _ _ _ => true
  | .add _ _ _ | .addi _ _ _ | .sub _ _ _ | .mul _ _ _ _ => true
  | .seq _ _ _ | .sne _ _ _ | .slt _ _ _ | .sge _ _ _ | .sltu _ _ _ | .sgeu _ _ _ => true
  | .and _ _ _ | .or _ _ _ | .xor _ _ _ | .andn _ _ _ | .andi _ _ _ | .ori _ _ _ | .xori _ _ _ => true
  | .sll _ _ _ | .slr _ _ _ | .sar _ _ _ | .slli _ _ _ | .slri _ _ _ | .sari _ _ _ => true
  | .lr8 _ _ _ | .lr8u _ _ _ | .lr16 _ _ _ | .lr16u _ _ _ | .lr32 _ _ _ => true
  | .lx16 _ _ _ | .lx16u _ _ _ | .lx32 _ _ _ => true
  | .ld8 _ _ _ | .ld8u _ _ _ | .ld16 _ _ _ | .ld16u _ _ _ | .ld32 _ _ _ => true
  | .sr8 _ _ _ | .sr16 _ _ _ | .sr32 _ _ _ | .sx16 _ _ _ | .sx32 _ _ _ => true
  | .sd8 _ _ _ | .sd16 _ _ _ | .sd32 _ _ _ => true
  | .mvz _ _ _ | .mvnz _ _ _ | .csb _ _ | .brev _ _ | .swap _ _ _ => true
  | .trap _ _ | .sbrk | .rte | .sleep => true
  | .itlb _ _ | .dtlb _ _ | .icache _ _ _ | .dcache _ _ _ => true

end Sys2Proof
end

