-- ==== Sys2Proof/Tests/Slice0.lean ====
section
/-! SUPPORT. Tests: the words of the instruction pages decode to their instructions; single steps give what the worked
examples of the manual print (95_test_vectors.md part 1; part 2 where the manual has no example); and for each statement of
Certificates/Slice0/Obligations.lean that has hypotheses a state that meets them. -/

namespace Sys2Proof.Tests

open Sys2Proof Sys2Proof.Machine

/-! ### Well-formedness: for each check an ill-formed term, which it refuses, and a well-formed neighbour -/

theorem test_wf_mulu : Instr.wf (.mulu 3#5 3#5 1#5 2#5) = false ∧ Instr.wf (.mulu 0#5 0#5 1#5 2#5) = true := by decide

theorem test_wf_control_index : Instr.wf (.rcr 1#5 3#5) = false ∧ Instr.wf (.wcr 1#5 31#5) = false ∧
    Instr.wf (.rcr 1#5 6#5) = true := by decide

theorem test_wf_module_register : Instr.wf (.cld 1#5 0#3 512#10) = false ∧ Instr.wf (.cst 1#5 7#3 1023#10) = false ∧
    Instr.wf (.cld 1#5 0#3 511#10) = true := by decide

/-! ### Decoding: every constructor, words from 95_test_vectors.md and the encodings of the instruction pages -/

theorem test_decode_immediate_and_jumps :
    decode 0x24323456#32 = .ok (.lhi 1#5 0x123456#21) ∧
    decode 0x14201234#32 = .ok (.j 1#5 0x1234#21) ∧
    decode 0x000108f0#32 = .ok (.ja 0#5 1#5 0xf0#10) := by decide

theorem test_decode_register_branches :
    decode 0x18411840#32 = .ok (.beq 1#5 2#5 0x40#10) ∧
    decode 0x18410804#32 = .ok (.bne 1#5 2#5 4#10) ∧
    decode 0x18411004#32 = .ok (.blt 1#5 2#5 4#10) ∧
    decode 0x18410004#32 = .ok (.bge 1#5 2#5 4#10) ∧
    decode 0x18413004#32 = .ok (.bltu 1#5 2#5 4#10) ∧
    decode 0x18412004#32 = .ok (.bgeu 1#5 2#5 4#10) := by decide

theorem test_decode_immediate_branches :
    decode 0x10611840#32 = .ok (.beqi 1#5 3#5 0x40#10) ∧
    decode 0x12010804#32 = .ok (.bnei 1#5 16#5 4#10) ∧
    decode 0x12013804#32 = .ok (.bequi 1#5 16#5 4#10) ∧
    decode 0x12012804#32 = .ok (.bneui 1#5 16#5 4#10) ∧
    decode 0x13e11080#32 = .ok (.blti 1#5 31#5 0x80#10) ∧
    decode 0x12010004#32 = .ok (.bgei 1#5 16#5 4#10) ∧
    decode 0x13e13080#32 = .ok (.bltui 1#5 31#5 0x80#10) ∧
    decode 0x12012004#32 = .ok (.bgeui 1#5 16#5 4#10) := by decide

theorem test_decode_arithmetic :
    decode 0x08410003#32 = .ok (.add 3#5 1#5 2#5) ∧
    decode 0x00610034#32 = .ok (.addi 3#5 1#5 0x34#10) ∧
    decode 0x08418003#32 = .ok (.sub 3#5 1#5 2#5) ∧
    decode 0x08414464#32 = .ok (.mulu 3#5 4#5 1#5 2#5) ∧
    decode 0x0841c464#32 = .ok (.mul 3#5 4#5 1#5 2#5) := by decide

theorem test_decode_compares :
    decode 0x08415803#32 = .ok (.seq 3#5 1#5 2#5) ∧
    decode 0x08414803#32 = .ok (.sne 3#5 1#5 2#5) ∧
    decode 0x08415003#32 = .ok (.slt 3#5 1#5 2#5) ∧
    decode 0x08414003#32 = .ok (.sge 3#5 1#5 2#5) ∧
    decode 0x08417003#32 = .ok (.sltu 3#5 1#5 2#5) ∧
    decode 0x08416003#32 = .ok (.sgeu 3#5 1#5 2#5) := by decide

theorem test_decode_bitwise :
    decode 0x08410403#32 = .ok (.and 3#5 1#5 2#5) ∧
    decode 0x08410803#32 = .ok (.or 3#5 1#5 2#5) ∧
    decode 0x08410c03#32 = .ok (.xor 3#5 1#5 2#5) ∧
    decode 0x08418403#32 = .ok (.andn 3#5 1#5 2#5) ∧
    decode 0x302200f3#32 = .ok (.andi 1#5 2#5 0xf3#16) ∧
    decode 0x502200f4#32 = .ok (.ori 1#5 2#5 0xf4#16) ∧
    decode 0x6022ff6a#32 = .ok (.xori 1#5 2#5 0xff6a#16) := by decide

theorem test_decode_shifts :
    decode 0x08411003#32 = .ok (.sll 3#5 1#5 2#5) ∧
    decode 0x08412003#32 = .ok (.slr 3#5 1#5 2#5) ∧
    decode 0x08413003#32 = .ok (.sar 3#5 1#5 2#5) ∧
    decode 0x00611005#32 = .ok (.slli 3#5 1#5 5#5) ∧
    decode 0x00612008#32 = .ok (.slri 3#5 1#5 8#5) ∧
    decode 0x00613007#32 = .ok (.sari 3#5 1#5 7#5) := by decide

theorem test_decode_register_loads :
    decode 0x28411803#32 = .ok (.lr8 3#5 1#5 2#5) ∧
    decode 0x28413803#32 = .ok (.lr8u 3#5 1#5 2#5) ∧
    decode 0x28410803#32 = .ok (.lr16 3#5 1#5 2#5) ∧
    decode 0x28412803#32 = .ok (.lr16u 3#5 1#5 2#5) ∧
    decode 0x28410003#32 = .ok (.lr32 3#5 1#5 2#5) ∧
    decode 0x28414803#32 = .ok (.lx16 3#5 1#5 2#5) ∧
    decode 0x28416803#32 = .ok (.lx16u 3#5 1#5 2#5) ∧
    decode 0x28414003#32 = .ok (.lx32 3#5 1#5 2#5) := by decide

theorem test_decode_immediate_loads :
    decode 0x20611bf0#32 = .ok (.ld8 3#5 1#5 0x3f0#10) ∧
    decode 0x20613bf0#32 = .ok (.ld8u 3#5 1#5 0x3f0#10) ∧
    decode 0x20610808#32 = .ok (.ld16 3#5 1#5 8#10) ∧
    decode 0x20612be0#32 = .ok (.ld16u 3#5 1#5 0x3e0#10) ∧
    decode 0x20610004#32 = .ok (.ld32 3#5 1#5 4#10) := by decide

theorem test_decode_stores :
    decode 0x28411c03#32 = .ok (.sr8 3#5 1#5 2#5) ∧
    decode 0x28410c03#32 = .ok (.sr16 3#5 1#5 2#5) ∧
    decode 0x28410403#32 = .ok (.sr32 3#5 1#5 2#5) ∧
    decode 0x28414c03#32 = .ok (.sx16 3#5 1#5 2#5) ∧
    decode 0x28414403#32 = .ok (.sx32 3#5 1#5 2#5) ∧
    decode 0x20611ff0#32 = .ok (.sd8 3#5 1#5 0x3f0#10) ∧
    decode 0x20610fe0#32 = .ok (.sd16 3#5 1#5 0x3e0#10) ∧
    decode 0x206107e0#32 = .ok (.sd32 3#5 1#5 0x3e0#10) := by decide

theorem test_decode_miscellaneous :
    decode 0x08222403#32 = .ok (.mvz 3#5 2#5 1#5) ∧
    decode 0x08223403#32 = .ok (.mvnz 3#5 2#5 1#5) ∧
    decode 0x00615000#32 = .ok (.csb 3#5 1#5) ∧
    decode 0x00616000#32 = .ok (.brev 3#5 1#5) ∧
    decode 0x20613c01#32 = .ok (.swap 3#5 1#5 1#10) := by decide

theorem test_decode_system :
    decode 0x64202000#32 = .ok (.cld 1#5 0#3 0#10) ∧
    decode 0x64202400#32 = .ok (.cst 1#5 0#3 0#10) ∧
    decode 0x64401001#32 = .ok (.rcr 2#5 1#5) ∧
    decode 0x64401402#32 = .ok (.wcr 2#5 2#5) ∧
    decode 0x64400005#32 = .ok (.trap 2#5 5#10) ∧
    decode 0x64004c00#32 = .ok .sbrk ∧
    decode 0x64000400#32 = .ok .rte ∧
    decode 0x64000c00#32 = .ok .sleep ∧
    decode 0x00223400#32 = .ok (.itlb 1#4 2#5) ∧
    decode 0x00222400#32 = .ok (.dtlb 1#4 2#5) ∧
    decode 0x00221404#32 = .ok (.icache 1#4 2#5 4#10) ∧
    decode 0x01ff07ff#32 = .ok (.dcache 15#4 31#5 0x3ff#10) := by decide

/-- Printed-zero bits (R114), reserved words (R112), a "Don't care" bit (R113). -/
theorem test_decode_refusals :
    decode 0x00611021#32 = .error .mustBeZero ∧ decode 0x02003400#32 = .error .mustBeZero ∧
    decode 0x64082000#32 = .error .mustBeZero ∧ decode 0xffffffff#32 = .error .reserved ∧
    decode 0x04000000#32 = .error .reserved ∧ decode 0x0000fc00#32 = .error .reserved ∧
    decode 0x084103e3#32 = .ok (.add 3#5 1#5 2#5) := by decide

/-- The same bytes of a word in both byte orders (20_memory.md R61). -/
theorem test_decode_bytes : decodeBytes .big [0x24, 0x32, 0x34, 0x56] = .ok (.lhi 1#5 0x123456#21) ∧
    decodeBytes .little [0x56, 0x34, 0x32, 0x24] = .ok (.lhi 1#5 0x123456#21) ∧
    decodeTableWord 32 0x24323456 = some (.lhi 1#5 0x123456#21) := by decide

/-! ### Single steps: the worked examples -/

/-- The machine after reset with `pc` and some registers given. -/
def start (pc : Word) (rs : List (RegNo × Word)) : State :=
  rs.foldl (fun s p => s.writeReg p.1 p.2) (State.reset.withPc pc)

/-- A word of data in memory. -/
def withData (s : State) (a v : Word) : State := s.withMem (s.mem.store s.cfg.endian a v .word)

/-- What `f` reads after one step that runs the word. -/
def ran {α : Type} (s : State) (w : Nat) (f : State → α) : Option α :=
  match step (s.withFetchWord 32 w) with
  | .next t => some (f t)
  | .fault _ | .refused _ => none

/-- Register `r` after one step that runs the word at 0x1000. -/
def reg (r : RegNo) (rs : List (RegNo × Word)) (w : Nat) : Option Word := ran (start 0x1000#32 rs) w (State.reg · r)

/-- `pc` after one step that runs the word. -/
def pcAt (pc : Word) (rs : List (RegNo × Word)) (w : Nat) : Option Word := ran (start pc rs) w State.pc

/-- Register 3 after a load of the word 0x7887abcd at 0x20005688, R1 and R2 as given. -/
def loadOf (r1 r2 : Word) (w : Nat) : Option Word :=
  ran (withData (start 0x1000#32 [(1, r1), (2, r2)]) 0x20005688#32 0x7887abcd#32) w (State.reg · 3#5)

/-- The word at 0x20005688 (zero before) after a store of R3 = 0x1234abcd. -/
def storeOf (r1 r2 : Word) (w : Nat) : Option Word :=
  ran (start 0x1000#32 [(1, r1), (2, r2), (3, 0x1234abcd)]) w fun t => t.mem.read32 t.cfg.endian 0x20005688

theorem test_step_jumps :
    reg 1 [(1, 0xffffffff)] 0x24323456 = some 0x91a2b000#32 ∧ pcAt 0x1234 [] 0x14201234 = some 0x5b08#32 ∧
    pcAt 0x8a90 [] 0x143fedcc = some 0x41c4#32 ∧ reg 1 [] 0x14201234 = some 0x1004#32 ∧
    pcAt 0x1000 [(1, 0x56ac8)] 0x0001083c = some 0x56af8#32 := by decide

theorem test_step_branches :
    pcAt 0x1234 [(1, 0xa213), (2, 0xa213)] 0x18411840 = some 0x1338#32 ∧
    pcAt 0x1234 [(1, 0xffff458b), (2, 0xa213)] 0x18411840 = some 0x1238#32 ∧
    pcAt 0x1234 [(1, 0xa213), (2, 0xffff45b8)] 0x18411080 = some 0x1238#32 ∧
    pcAt 0x1234 [(1, 0xa213), (2, 0xffff45b8)] 0x18413080 = some 0x1438#32 ∧
    pcAt 0x1234 [(1, 3)] 0x10611840 = some 0x1338#32 ∧ pcAt 0x1234 [(1, 3)] 0x10211840 = some 0x1238#32 ∧
    pcAt 0x1234 [(1, 3)] 0x13e11080 = some 0x1238#32 ∧ pcAt 0x1234 [(1, 3)] 0x13e13080 = some 0x1438#32 := by decide

theorem test_step_arithmetic :
    reg 3 [(1, 0xa213), (2, 0xff451bc0)] 0x08410003 = some 0xff45bdd3#32 ∧
    reg 3 [(1, 0xa213)] 0x00610334 = some 0xa147#32 ∧
    reg 3 [(1, 0xa213), (2, 0xff451bc0)] 0x08418003 = some 0x00bb8653#32 ∧
    reg 3 [(1, 0xa213), (2, 0xff451bc0)] 0x08414464 = some 0x0000a19c#32 ∧
    reg 4 [(1, 0xa213), (2, 0xff451bc0)] 0x08414464 = some 0xadb08f40#32 := by decide

theorem test_step_compares :
    reg 3 [(1, 0xa213), (2, 0xa213)] 0x08415803 = some 1#32 ∧ reg 3 [(1, 0xffff458b)] 0x08414803 = some 1#32 ∧
    reg 1 [(1, 0xffffffff), (3, 0xffff4a80)] 0x08035001 = some 1#32 ∧
    reg 5 [(5, 0x1234), (6, 0xffff45b8), (7, 0x4000)] 0x08e67005 = some 0#32 ∧
    reg 3 [(1, 0x80000000), (2, 1)] 0x08414003 = some 0#32 ∧ reg 3 [(1, 0x80000000), (2, 1)] 0x08416003 = some 1#32 := by
  decide

theorem test_step_bitwise :
    reg 3 [(1, 0x12345678), (2, 0xff451bc0)] 0x08410403 = some 0x12041240#32 ∧
    reg 3 [(1, 0x12345678), (2, 0xff451bc0)] 0x08410803 = some 0xff755ff8#32 ∧
    reg 3 [(1, 0x12345678), (2, 0xff451bc0)] 0x08410c03 = some 0xed714db8#32 ∧
    reg 3 [(1, 0x12345678), (2, 0xff451bc0)] 0x08418403 = some 0x00304438#32 ∧
    reg 1 [(2, 0xff451bc0)] 0x302200f3 = some 0xc0#32 ∧ reg 3 [] 0x5060f234 = some 0xfffff234#32 ∧
    reg 1 [(2, 0xff451bc0)] 0x6022ff6a = some 0x00bae4aa#32 := by decide

theorem test_step_shifts :
    reg 3 [(1, 0x12345678), (2, 4)] 0x08411003 = some 0x23456780#32 ∧
    reg 3 [(1, 0x87654321), (2, 8)] 0x08412003 = some 0x00876543#32 ∧
    reg 3 [(1, 0x87654321), (2, 8)] 0x08413003 = some 0xff876543#32 ∧
    reg 3 [(1, 0x12345678)] 0x00611005 = some 0x468acf00#32 ∧
    reg 3 [(1, 0x87654321)] 0x00612008 = some 0x00876543#32 ∧
    reg 3 [(1, 0x87654321)] 0x00613007 = some 0xff0eca86#32 := by decide

/-- The word, and (with the machine's default big-endian order) its bytes and halves. -/
theorem test_step_loads :
    loadOf 0x20005678 0x10 0x28410003 = some 0x7887abcd#32 ∧ loadOf 0x20005678 0x10 0x28411803 = some 0x78#32 ∧
    loadOf 0x20005679 0x10 0x28411803 = some 0xffffff87#32 ∧ loadOf 0x20005679 0x10 0x28413803 = some 0x87#32 ∧
    loadOf 0x2000567a 0x10 0x28410803 = some 0xffffabcd#32 ∧ loadOf 0x2000567a 0x10 0x28412803 = some 0xabcd#32 ∧
    loadOf 0x2000567a 8 0x28414803 = some 0xffffabcd#32 ∧ loadOf 0x2000567a 8 0x28416803 = some 0xabcd#32 ∧
    loadOf 0x20005678 4 0x28414003 = some 0x7887abcd#32 ∧ loadOf 0x20005699 0 0x20611bf0 = some 0xffffff87#32 ∧
    loadOf 0x20005699 0 0x20613bf0 = some 0x87#32 ∧ loadOf 0x2000567a 0 0x20610808 = some 0xffffabcd#32 ∧
    loadOf 0x200056aa 0 0x20612bf0 = some 0xabcd#32 ∧ loadOf 0x20005678 0 0x20610004 = some 0x7887abcd#32 := by decide

theorem test_step_stores :
    storeOf 0x20005678 0x10 0x28410403 = some 0x1234abcd#32 ∧ storeOf 0x20005678 0x10 0x28410c03 = some 0xabcd0000#32 ∧
    storeOf 0x20005678 0x10 0x28411c03 = some 0xcd000000#32 ∧ storeOf 0x20005678 8 0x28414c03 = some 0xabcd0000#32 ∧
    storeOf 0x20005678 4 0x28414403 = some 0x1234abcd#32 ∧ storeOf 0x20005698 0 0x20611ff0 = some 0xcd000000#32 ∧
    storeOf 0x200056a8 0 0x20610ff0 = some 0xabcd0000#32 ∧ storeOf 0x200056a8 0 0x206107f8 = some 0x1234abcd#32 := by
  decide

theorem test_step_miscellaneous :
    reg 3 [(1, 0x2000567a), (2, 0x10), (3, 7)] 0x08222403 = some 7#32 ∧
    reg 3 [(1, 0x2000567c)] 0x08222403 = some 0x2000567c#32 ∧
    reg 3 [(1, 0x2000567a), (2, 0x10)] 0x08223403 = some 0x2000567a#32 ∧
    reg 3 [(1, 0x2000567a)] 0x00615000 = some 1#32 ∧ reg 3 [] 0x00605000 = some 0x1f#32 ∧
    reg 3 [(1, 0x80000000)] 0x00615000 = some 0#32 ∧ reg 3 [(1, 0x04030201)] 0x00616000 = some 0x01020304#32 ∧
    ran (start 0x1000 [(1, 0x2000), (3, 1)]) 0x20613c01
      (fun t => (t.reg 3#5, t.mem.read32 .big 0x2004)) = some (0#32, 1#32) := by decide

theorem test_step_control :
    reg 1 [] 0x64201000 = some 8#32 ∧ ran ((start 0 []).withEsr 0xf) 0x64401001 (State.reg · 2#5) = some 0xf#32 ∧
    ran (start 0 [(1, 3)]) 0x64201400 (fun t => t.sr.toWord) = some 0x0b#32 ∧
    ran (start 0 [(2, 0x80000000)]) 0x64401402 State.epc = some 0x80000000#32 ∧
    ran (start 0 []) 0x64400005 (fun t => (t.reg 2#5, t.epc, t.esr)) = some (5#32, 4#32, 8#32) ∧
    ran ((start 0 []).withEpc 0x123c) 0x64000400 (fun t => (t.pc, t.sr.toWord)) = some (0x123c#32, 0#32) := by decide

/-- A platform that maps every access of the first 64 Kbytes 64 Kbytes up (20_memory.md R76). -/
def mapped : Config :=
  { Config.default with translations := [⟨0xffff0000, 0, 0x10000, none, none⟩] }

/-- The store goes through the translation, and so do the fetch of its word and the read of a vector word. -/
theorem test_translation :
    ran (({ State.reset with cfg := mapped } |>.withPc 0x1000).writeReg 3 0x1234abcd) 0x20600440
      (fun t => (t.mem.read32 .big 0x10100, t.mem.read32 .big 0x100, t.mem.read32 .big 0x11000)) =
        some (0x1234abcd#32, 0#32, 0x20600440#32) ∧
    translate mapped 0xfffd#32 .fetch true = 0x1fffd#32 ∧ translate mapped 0x10000#32 .read false = 0x10000#32 ∧
    ran { State.reset with cfg := { mapped with translations := [⟨0xfc000000, 0x80000000, 0, some .read, some true⟩] },
                           mem := [(0x17, 4)] } 0x64400005 State.pc = some 4#32 := by decide

/-- A power-on with a debug bootstrap: SR is 0x0c (log 24), `pc` the word at 0xEC000000. -/
theorem test_powerOn_dboot : (match powerOn Config.default [(0xec000003, 8)] [] 0 0 0 0 true with
    | .next t => some (t.sr.toWord, t.pc)
    | .fault _ | .refused _ => none) = some (0x0c#32, 8#32) := by decide

/-- The power-on reset of the default platform with nothing loaded is the state after reset (R331). -/
theorem test_reset : powerOn Config.default [] [] 0 0 0 0 false = .next State.reset := rfl

/-- The assembler's halves of an address (30_encoding.md R120). -/
theorem test_operators : opH21 0x12345678 = 0x2468a#21 ∧ opL11 0x12345678 = 0x678#16 ∧
    opEh21 0x12345678 = 0x2468b#21 := by decide

/-! ### Witnesses: for each statement with hypotheses, a state that meets them, at the edges of their ranges -/

/-- A state about to run `w` at `p` with the given platform, SR and inputs of this step. -/
def about (c : Config) (r : StatusReg) (inp : StepInput) (p w : Word) : State :=
  placeAtPc (({ State.reset with cfg := c } |>.withPc p |>.withSr r).withInputs [inp]) w

/-- SR with every enable set, supervisor mode. -/
def srOn : StatusReg := ⟨7#3, true, true, true, true⟩

/-- SR with every field clear: user mode. -/
def srOff : StatusReg := ⟨0#3, false, false, false, false⟩

/-- The last word of the address space. -/
def last : Word := 0xfffffffc#32

/-- A platform on which the accesses to that word fail. -/
def barred (k : AccessKind) : Config := { Config.default with faults := [⟨0xfffffffc, 4, some k, none, none⟩] }

/-- A platform with one answer for each kind of module access. -/
def modules (r : ReadAnswer) (w : WriteAnswer) (o : OpAnswer) (m : Bool) : Config :=
  { Config.default with
    moduleReads := [⟨7#3, 511#9, none, r⟩], moduleWrites := [⟨7#3, 511#9, none, some m, w⟩],
    unitOps := [⟨.itlb, 15#4, none, none, o⟩, ⟨.dtlb, 15#4, none, none, o⟩, ⟨.icache, 15#4, none, none, o⟩,
      ⟨.dcache, 15#4, none, none, o⟩] }

theorem witness_DontCareBitsIgnored : (0b100000#6 ≠ 0b010001#6) ∧ (0b100000#6 ≠ 0b110001#6) ∧
    decode (wordSix 0b000010#6 2#5 1#5 0b100000#6 31#5 3#5) = .ok (.sub 3#5 1#5 2#5) := by decide

theorem witness_PrintedZeroBits_words :
    (0b001100#6 = 0b000100#6 ∨ 0b001100#6 = 0b001000#6 ∨ 0b001100#6 = 0b001100#6) ∧ 16#5 ≠ 0#5 ∧ 0b10#2 ≠ 0#2 ∧
    decode (wordSix 0b000000#6 0#5 0#5 0b001100#6 16#5 0#5) = .error .mustBeZero ∧
    decode (wordI10 0b000000#6 (0b1#1 ++ 0#4) 0#5 0b001101#6 0#10) = .error .mustBeZero ∧
    decode (wordI10 0b011001#6 0#5 (0b10#2 ++ 0#3) 0b001001#6 0#10) = .error .mustBeZero := by decide

theorem witness_PrintedZeroBits_step : undisturbed (about .default srOff { irq := true } last 0x00611021#32) ∧
    fetches (about .default srOff { irq := true } last 0x00611021#32) 0x00611021#32 ∧
    decode 0x00611021#32 = .error .mustBeZero := by
  unfold undisturbed fetches; decide

/-- No byte of the word has been stored to. -/
theorem witness_StepRunsDecodedInstruction_loaded :
    let s := about .default srOff { irq := true, debugInterrupt := true } last 0x08410003#32
    s.power = .running ∧ s.pc.toNat % 4 = 0 ∧ undisturbed s ∧ accessFault s.cfg s.pc 4 .fetch s.sr.sm = false ∧
      (∀ k, k < 4 → (s.physical .fetch s.pc).toNat + k ∉ s.stored) ∧
      decodeBytes s.cfg.endian ((List.range 4).map fun k => s.mem.read ((s.physical .fetch s.pc).toNat + k)) = .ok (.add 3#5 1#5 2#5) := by
  unfold undisturbed; decide

/-- The platform says that fetch sees stores, and a byte of the word has been stored to. -/
theorem witness_StepRunsDecodedInstruction_stored :
    let s := (about { Config.default with endian := .little, fetchSeesStores := true } srOn {} 0 0x64000400#32).withStored [3]
    s.power = .running ∧ s.pc.toNat % 4 = 0 ∧ undisturbed s ∧ accessFault s.cfg s.pc 4 .fetch s.sr.sm = false ∧
      s.cfg.fetchSeesStores = true ∧
      decodeBytes s.cfg.endian ((List.range 4).map fun k => s.mem.read ((s.physical .fetch s.pc).toNat + k)) = .ok .rte := by
  unfold undisturbed; decide

theorem witness_FetchAndDecodeExceptions_reserved :
    undisturbed (about .default srOff {} last 0xffffffff#32) ∧
    fetches (about .default srOff {} last 0xffffffff#32) 0xffffffff#32 ∧ decode 0xffffffff#32 = .error .reserved ∧
    vectorReadable (about .default srOff {} last 0xffffffff#32) 0x04#32 := by
  unfold undisturbed fetches vectorReadable; decide

theorem witness_FetchAndDecodeExceptions_ifault :
    let s := about (barred .fetch) srOn {} last 0#32
    s.power = .running ∧ s.pcAligned ∧ undisturbed s ∧ accessFault s.cfg s.pc 4 .fetch s.sr.sm = true ∧
      vectorReadable s 0x18#32 := by
  unfold undisturbed vectorReadable; decide

theorem witness_FetchStops_misaligned :
    let s := State.reset.withPc 0xffffffff#32
    s.power = .running ∧ (currentInput s).dboot = false ∧ (currentInput s).manualReset = false ∧ s.pc.toNat % 4 ≠ 0 := by
  decide

theorem witness_FetchStops_stored :
    let s := (about .default srOn {} last 0#32).withStored [0xffffffff]
    s.power = .running ∧ s.pcAligned ∧ undisturbed s ∧ accessFault s.cfg s.pc 4 .fetch s.sr.sm = false ∧
      s.cfg.fetchSeesStores = false ∧ (s.physical .fetch s.pc).toNat + 3 ∈ s.stored := by
  unfold undisturbed; decide

theorem witness_OwnExceptionIsTaken :
    ownException (.trap 0#5 0#10) State.reset = some .trap ∧
    ownException .sbrk (State.reset.withSr srOn) = some .sbrk ∧ ownException .sbrk State.reset = some .illins ∧
    ownException (.rcr 1#5 0#5) (State.reset.withSr srOff) = some .illins ∧
    ownException (.ld32 1#5 0#5 0x3ff#10) (about (barred .read) srOn {} 0 0) = some .dfault ∧
    ownException (.cst 1#5 7#3 511#10) (about (modules .illins .illins .illins false) srOff {} 0 0) = some .illins := by
  decide

theorem witness_SynchronousFirst :
    let s := about .default srOn { irq := true, debugInterrupt := true, dataBreak := some 0 } last 0x64400005#32
    fetches s 0x64400005#32 ∧ decode 0x64400005#32 = .ok (.trap 2#5 5#10) ∧ ownException (.trap 2#5 5#10) s = some .trap ∧
      (currentInput s).dboot = false ∧ (currentInput s).manualReset = false ∧
      (s.sr.de = true → (currentInput s).instrBreak = false) := by
  unfold fetches; decide

theorem witness_Interrupts :
    let s := about .default srOn { irq := true } last 0x08410003#32
    fetches s 0x08410003#32 ∧ decode 0x08410003#32 = .ok (.add 3#5 1#5 2#5) ∧ ownException (.add 3#5 1#5 2#5) s = none ∧
      (currentInput s).dboot = false ∧ (currentInput s).manualReset = false ∧
      (s.sr.de = true → (currentInput s).instrBreak = false ∧ (currentInput s).debugInterrupt = false ∧
        (currentInput s).dataBreak = none) ∧
      (currentInput s).irq = true ∧ s.sr.ie = true ∧ vectorReadable s 0x10#32 := by
  unfold fetches vectorReadable; decide

/-- The instruction of `witness_Interrupts` completes on its own. -/
theorem witness_Interrupts_completes :
    ∃ t, exec (.add 3#5 1#5 2#5) (consumeInput (about .default srOn { irq := true } last 0x08410003#32)) = .next t :=
  ⟨_, rfl⟩

theorem witness_Interrupts_masked : State.reset.power = .running ∧ State.reset.sr.ie = false := by decide

theorem witness_DebugEventsAccepted_instrBreak :
    let s := about .default srOn { instrBreak := true } last 0x08410003#32
    s.sr.de = true ∧ s.power = .running ∧ s.pcAligned ∧ vectorReadable s 0x08#32 ∧ (currentInput s).dboot = false ∧
      (currentInput s).manualReset = false ∧ (currentInput s).instrBreak = true := by
  unfold vectorReadable; decide

theorem witness_DebugEventsAccepted_dataBreak :
    let s := about .default srOn { dataBreak := some 0x1238, irq := true, debugInterrupt := true } last 0x20610004#32
    s.sr.de = true ∧ s.power = .running ∧ s.pcAligned ∧ vectorReadable s 0x08#32 ∧ (currentInput s).dboot = false ∧
      (currentInput s).manualReset = false ∧ (currentInput s).instrBreak = false ∧ fetches s 0x20610004#32 ∧
      decode 0x20610004#32 = .ok (.ld32 3#5 1#5 4#10) ∧ ownException (.ld32 3#5 1#5 4#10) s = none ∧
      (dataAccess (.ld32 3#5 1#5 4#10) s).isSome ∧ (currentInput s).dataBreak = some 0x1238#32 := by
  unfold vectorReadable fetches; decide

/-- The instruction of `witness_DebugEventsAccepted_dataBreak` completes on its own. -/
theorem witness_DebugEventsAccepted_completes :
    ∃ t, exec (.ld32 3#5 1#5 4#10) (consumeInput (about .default srOn
      { dataBreak := some 0x1238, irq := true, debugInterrupt := true } last 0x20610004#32)) = .next t :=
  ⟨_, rfl⟩

theorem witness_DebugEventsAccepted_debugInterrupt :
    let s := about .default srOn { irq := true, debugInterrupt := true } last 0x08410003#32
    s.sr.de = true ∧ s.power = .running ∧ s.pcAligned ∧ vectorReadable s 0x08#32 ∧ (currentInput s).dboot = false ∧
      (currentInput s).manualReset = false ∧ (currentInput s).instrBreak = false ∧ fetches s 0x08410003#32 ∧
      decode 0x08410003#32 = .ok (.add 3#5 1#5 2#5) ∧ ownException (.add 3#5 1#5 2#5) s = none ∧
      (currentInput s).dataBreak = none ∧ (currentInput s).debugInterrupt = true := by
  unfold vectorReadable fetches; decide

/-- The instruction of `witness_DebugEventsAccepted_debugInterrupt` completes on its own. -/
theorem witness_DebugEventsAccepted_completes_add :
    ∃ t, exec (.add 3#5 1#5 2#5) (consumeInput (about .default srOn
      { irq := true, debugInterrupt := true } last 0x08410003#32)) = .next t :=
  ⟨_, rfl⟩

theorem witness_DebugEnable :
    State.reset.sr.de = false ∧ (currentInput (State.reset.withInputs [{ dboot := true }])).dboot = true ∧
    (State.reset.withSr srOn).sr.de = true ∧ vectorReadable (State.reset.withSr srOn) 0x08#32 ∧
    vectorReadable State.reset 0x04#32 := by
  unfold vectorReadable; decide

theorem witness_DebugEnable_entries :
    (∃ t, takeException .sbrk 4#32 (State.reset.withSr srOn) = .next t) ∧
    ∃ t, takeException .int 0xfffffffc#32 (State.reset.withSr srOn) = .next t :=
  ⟨⟨_, rfl⟩, _, rfl⟩

theorem witness_SleepingWaits :
    let quiet := (State.reset.withPower .sleep)
    let woken := ((State.reset.withPower .standby).withSr srOn).withInputs [{ irq := true }]
    let masked := (State.reset.withPower .standby).withInputs [{ irq := true }]
    (quiet.power = .sleep ∧ (currentInput quiet).dboot = false ∧ (currentInput quiet).manualReset = false ∧
      (currentInput quiet).irq = false) ∧
    (woken.power = .standby ∧ (currentInput woken).dboot = false ∧ (currentInput woken).manualReset = false ∧
      (currentInput woken).irq = true ∧ woken.sr.ie = true ∧ vectorReadable woken 0x10#32) ∧
    masked.power = .standby ∧ (currentInput masked).irq = true ∧ masked.sr.ie = false := by
  unfold vectorReadable; decide

theorem witness_PowerOnReset : accessFault Config.default 0x80000000#32 4 .read true = false := by decide

theorem witness_OtherResets :
    (currentInput (State.reset.withInputs [{ manualReset := true }])).dboot = false ∧
    (currentInput (State.reset.withInputs [{ manualReset := true }])).manualReset = true ∧
    (currentInput (State.reset.withInputs [{ dboot := true }])).dboot = true ∧
    accessFault State.reset.cfg 0x80000000#32 4 .read true = false ∧
    accessFault State.reset.cfg 0xEC000000#32 4 .read true = false := by decide

/-- A store of R3 to the last word of the address space, in user mode. -/
def storing : State := (about .default srOff {} 0x1000 0x20610400#32).writeReg 1 last |>.writeReg 3 0x1234abcd

/-- TRAP in user mode at the last word of the address space. -/
def trapping : State := about .default srOff {} last 0x64400005#32

/-- RTE in supervisor mode, to user mode. -/
def returning : State := about .default StatusReg.reset {} last 0x64000400#32

theorem witness_StepKeepsCanonical : storing.canonical = true ∧ ∃ t, step storing = .next t := ⟨by decide, _, rfl⟩

theorem witness_StepKeepsConfiguration : ∃ t, step (about .default srOff {} 0 0x08410003#32) = .next t := ⟨_, rfl⟩

theorem witness_ModeTransitions_enter : trapping.sr.sm = false ∧ ∃ t, step trapping = .next t ∧ t.sr.sm = true :=
  ⟨by decide, _, rfl, by decide⟩

theorem witness_ModeTransitions_leave : returning.sr.sm = true ∧ ∃ t, step returning = .next t ∧ t.sr.sm = false :=
  ⟨by decide, _, rfl, by decide⟩

theorem witness_ModeTransitions_rules :
    (∃ t, takeException .int last (State.reset.withSr srOff) = .next t) ∧ State.reset.sr.sm = true ∧
    ∃ t, exec (.wcr 1#5 0#5) State.reset = .next t :=
  ⟨⟨_, rfl⟩, rfl, _, rfl⟩

theorem witness_UserModeKeepsControl : trapping.sr.sm = false ∧ (∃ t, exec (.trap 2#5 5#10) trapping = .next t) ∧
    ∃ t, exec (.add 3#5 1#5 2#5) trapping = .next t :=
  ⟨by decide, ⟨_, rfl⟩, _, rfl⟩

theorem witness_RegisterFrame : (∃ t, exec (.mulu 3#5 4#5 1#5 2#5) State.reset = .next t) ∧
    (31#5 ∉ destinations (.mulu 3#5 4#5 1#5 2#5)) ∧ 1#5 ∉ destinations (.mulu 3#5 4#5 1#5 2#5) :=
  ⟨⟨_, rfl⟩, by decide⟩

theorem witness_MemoryFrame : (∃ t, exec (.sd32 3#5 1#5 0#10) storing = .next t) ∧
    writesMemory (.sd32 3#5 1#5 0#10) = true ∧ (∃ t, exec (.ld32 3#5 1#5 0#10) storing = .next t) ∧
    writesMemory (.ld32 3#5 1#5 0#10) = false :=
  ⟨⟨_, rfl⟩, rfl, ⟨_, rfl⟩, rfl⟩

theorem witness_PcAlignmentKept : trapping.pcAligned = true ∧ (∃ t, exec (.j 1#5 1#21) trapping = .next t) ∧
    (∀ ra rb u, (.j 1#5 1#21 : Instr) ≠ .ja ra rb u) ∧ (.j 1#5 1#21 : Instr) ≠ .rte :=
  ⟨by decide, ⟨_, rfl⟩, nofun, nofun⟩

theorem witness_ByteOrder : last.toNat % 4 = 0 := by decide

theorem witness_EffectiveAddresses : State.reset.cfg.translations = [] := by decide

theorem witness_StoreThenLoad : (0xfffffffb < last.toNat ∨ last.toNat + Size.word.bytes ≤ 0xfffffffb) ∧
    (0x100000000 < last.toNat ∨ last.toNat + Size.word.bytes ≤ 0x100000000) := by decide

theorem witness_DataAccessOutcomes_misaligned :
    let i : Instr := .ld32 3#5 1#5 0#10
    let s := storing.writeReg 1 0xffffffff#32
    dataAccess i s = some ⟨0xffffffff#32, .word, [.read]⟩ ∧ (0xffffffff#32 : Word).toNat % Size.word.bytes ≠ 0 ∧
      s.cfg.misaligned = .refuse := by decide

theorem witness_DataAccessOutcomes_misalignedDfault :
    let i : Instr := .sx16 3#5 1#5 0#5
    let s := (about { Config.default with misaligned := .dfault } srOn {} 0 0).writeReg 1 1#32
    dataAccess i s = some ⟨1#32, .half, [.write]⟩ ∧ (1#32 : Word).toNat % Size.half.bytes ≠ 0 ∧
      s.cfg.misaligned = .dfault ∧ vectorReadable s 0x18#32 := by
  unfold vectorReadable; decide

theorem witness_DataAccessOutcomes_refused :
    let i : Instr := .swap 3#5 0#5 0x3ff#10
    let s := about (barred .write) srOn {} 0 0
    dataAccess i s = some ⟨last, .word, [.read, .write]⟩ ∧ last.toNat % Size.word.bytes = 0 ∧
      AccessKind.write ∈ [AccessKind.read, .write] ∧
      accessFault s.cfg last Size.word.bytes .write s.sr.sm = true ∧ vectorReadable s 0x18#32 := by
  unfold vectorReadable; decide

theorem witness_DataAccessOutcomes_completes :
    let i : Instr := .swap 3#5 0#5 0x3ff#10
    let s := about .default srOn {} 0 0
    dataAccess i s = some ⟨last, .word, [.read, .write]⟩ ∧ last.toNat % Size.word.bytes = 0 ∧
      ∀ k ∈ [AccessKind.read, .write], accessFault s.cfg last Size.word.bytes k s.sr.sm = false := by decide

theorem witness_ExceptionEntry :
    let s := State.reset.withSr srOn
    (vectorReadable s 0x04#32 ∧ vectorReadable s 0x08#32 ∧ vectorReadable s 0x10#32 ∧ vectorReadable s 0x14#32 ∧
      vectorReadable s 0x18#32) ∧
    ¬vectorReadable { s with cfg := { Config.default with faults := [⟨0x9c000004, 1, none, none, none⟩] } }
      Exception.illins.offset := by
  unfold vectorReadable; decide

theorem witness_PrivilegedInUserMode : trapping.sr.sm = false ∧ vectorReadable trapping 0x04#32 := by
  unfold vectorReadable; decide

theorem witness_MovaBuildsTheValue : (31#5 : RegNo) ≠ 0#5 := by decide

theorem witness_MuluResult : ((0#5 : RegNo) ≠ 31#5 ∨ (31#5 : RegNo) = 0#5) ∧ ((0#5 : RegNo) ≠ 0#5 ∨ (0#5 : RegNo) = 0#5) ∧
    (31#5 : RegNo) ≠ 0#5 := by decide

/-- R1 is the last byte, halfword or word of memory, R0 the index: RegisterLoads, ImmediateLoads, RegisterStores,
ImmediateStores and SwapResult. -/
theorem witness_accesses :
    let s (a : Word) := (about .default srOff {} 0x1000 0).writeReg 1 a
    checkAccess (s 0xffffffff) ⟨eaReg (s 0xffffffff) 1#5 0#5, .byte, [.read]⟩ = .ok ∧
    checkAccess (s 0xfffffffe) ⟨eaReg (s 0xfffffffe) 1#5 0#5, .half, [.read]⟩ = .ok ∧
    checkAccess (s last) ⟨eaReg (s last) 1#5 0#5, .word, [.read]⟩ = .ok ∧
    checkAccess (s 2) ⟨eaScaled (s 2) 1#5 1#5 1, .half, [.read]⟩ = .ok ∧
    checkAccess (s 4) ⟨eaScaled (s 4) 1#5 1#5 2, .word, [.read]⟩ = .ok ∧
    checkAccess (s 0) ⟨eaImm (s 0) 1#5 0x3ff#10 0, .byte, [.read]⟩ = .ok ∧
    checkAccess (s 0) ⟨eaImm (s 0) 1#5 0x3ff#10 1, .half, [.read]⟩ = .ok ∧
    checkAccess (s 0) ⟨eaImm (s 0) 1#5 0x3ff#10 2, .word, [.read]⟩ = .ok ∧
    checkAccess (s 0xffffffff) ⟨eaReg (s 0xffffffff) 1#5 0#5, .byte, [.write]⟩ = .ok ∧
    checkAccess (s 0xfffffffe) ⟨eaReg (s 0xfffffffe) 1#5 0#5, .half, [.write]⟩ = .ok ∧
    checkAccess (s last) ⟨eaReg (s last) 1#5 0#5, .word, [.write]⟩ = .ok ∧
    checkAccess (s 2) ⟨eaScaled (s 2) 1#5 1#5 1, .half, [.write]⟩ = .ok ∧
    checkAccess (s 4) ⟨eaScaled (s 4) 1#5 1#5 2, .word, [.write]⟩ = .ok ∧
    checkAccess (s 0) ⟨eaImm (s 0) 1#5 0x3ff#10 0, .byte, [.write]⟩ = .ok ∧
    checkAccess (s 0) ⟨eaImm (s 0) 1#5 0x3ff#10 1, .half, [.write]⟩ = .ok ∧
    checkAccess (s 0) ⟨eaImm (s 0) 1#5 0x3ff#10 2, .word, [.write]⟩ = .ok ∧
    checkAccess (s 0) ⟨eaImm (s 0) 1#5 0x3ff#10 2, .word, [.read, .write]⟩ = .ok := by decide

theorem witness_ConditionalMoves : storing.reg 2#5 = 0#32 ∧ storing.reg 1#5 ≠ 0#32 := by decide

theorem witness_CldResult :
    (512#10).msb = true ∧ (511#10).msb = false ∧
    moduleRead (modules (.holds 5) .illins .illins true) 7#3 ((511#10).setWidth 9) true = some (.holds 5) ∧
    moduleRead (modules .varies .illins .illins true) 7#3 ((511#10).setWidth 9) false = some .varies ∧
    moduleRead (modules .illins .illins .illins true) 7#3 ((511#10).setWidth 9) false = some .illins ∧
    moduleRead Config.default 0#3 ((0#10).setWidth 9) true = none ∧
    vectorReadable (about (modules .illins .illins .illins true) srOff {} 0 0) 0x04#32 := by
  unfold vectorReadable; decide

theorem witness_CstResult :
    moduleWrite (modules .illins .accepted .illins true) 7#3 ((511#10).setWidth 9) 0#32 true = some .accepted ∧
    moduleWrite (modules .illins .illins .illins true) 7#3 ((511#10).setWidth 9) 0#32 true = some .illins ∧
    moduleWrite (modules .illins .illins .illins true) 7#3 ((511#10).setWidth 9) 0#32 false = none ∧
    vectorReadable (about (modules .illins .illins .illins true) srOn {} 0 0) 0x04#32 := by
  unfold vectorReadable; decide

/-- StatusRegister, RcrResult and WcrResult: supervisor mode, and indices that name no register. -/
theorem witness_control_registers : State.reset.sr.sm = true ∧ (3#5 : BitVec 5) ∉ [0#5, 1#5, 2#5, 5#5, 6#5] ∧
    (4#5 : BitVec 5) ∉ [0#5, 1#5, 2#5, 5#5, 6#5] ∧ (7#5 : BitVec 5) ∉ [0#5, 1#5, 2#5, 5#5, 6#5] ∧
    (31#5 : BitVec 5) ∉ [0#5, 1#5, 2#5, 5#5, 6#5] := by decide

theorem witness_TrapResult : vectorReadable trapping 0x14#32 := by unfold vectorReadable; decide

theorem witness_RteResult : (State.reset.withSr srOn).sr.sm = true ∧ (State.reset.withSr srOn).sr.ds = true ∧
    State.reset.sr.sm = true ∧ State.reset.sr.ds = false := by decide

theorem witness_SleepResult :
    let s (m : SleepMode) (p : Bool) := about { Config.default with sleepMode := m, pauseSupported := p } srOn {} 0 0
    ((s .pause true).sr.sm = true ∧ (s .pause true).cfg.sleepMode = .pause ∧ (s .pause true).cfg.pauseSupported = true) ∧
    ((s .pause false).sr.sm = true ∧ (s .pause false).cfg.sleepMode = .pause ∧ (s .pause false).cfg.pauseSupported = false) ∧
    (s .standby true).sr.sm = true ∧ (s .standby true).cfg.sleepMode ≠ .pause := by decide

theorem witness_TlbCommands :
    let s (o : OpAnswer) := about (modules .illins .illins o true) srOn {} 0 0
    (s (.done true)).sr.sm = true ∧ unitOp (s (.done true)).cfg .itlb 15#4 0#32 true = some (.done true) ∧
    unitOp (s (.done false)).cfg .dtlb 15#4 0#32 true = some (.done false) ∧
    unitOp (s .illins).cfg .itlb 15#4 0#32 true = some .illins ∧
    unitOp (s .illins).cfg .dtlb 15#4 0#32 true = some .illins ∧ vectorReadable (s .illins) 0x04#32 ∧
    unitOp Config.default .itlb 0#4 0#32 true = none ∧ unitOp Config.default .dtlb 0#4 0#32 true = none := by
  unfold vectorReadable; decide

theorem witness_CacheCommands :
    let s (o : OpAnswer) := about (modules .illins .illins o true) srOff {} 0 0
    let a := eaImm (s .illins) 31#5 0x3ff#10 2
    unitOp (s (.done true)).cfg .icache 15#4 a false = some (.done true) ∧
    unitOp (s (.done false)).cfg .dcache 15#4 a false = some (.done false) ∧
    unitOp (s .illins).cfg .icache 15#4 a false = some .illins ∧
    unitOp (s .illins).cfg .dcache 15#4 a false = some .illins ∧ vectorReadable (s .illins) 0x04#32 ∧
    unitOp Config.default .icache 0#4 a true = none ∧ unitOp Config.default .dcache 0#4 a true = none := by
  unfold vectorReadable; decide

end Sys2Proof.Tests
end

section
/-! PROOFS. Memory (20_memory.md): the invariant of the canonical form, the constancy of the configuration, the frame of the
stores, byte order, a load after a store, and the outcomes of data accesses and of the fetch. -/

namespace Sys2Proof.MemoryProofs

open Sys2Proof Sys2Proof.Machine

/-! ### What exception entries and resets leave alone -/

@[simp] theorem saveAndEnter_regs (e : Exception) (p : Word) (s : State) : (saveAndEnter e p s).regs = s.regs := by
  cases e <;> rfl

@[simp] theorem saveAndEnter_mem (e : Exception) (p : Word) (s : State) : (saveAndEnter e p s).mem = s.mem := by
  cases e <;> rfl

@[simp] theorem saveAndEnter_stored (e : Exception) (p : Word) (s : State) :
    (saveAndEnter e p s).stored = s.stored := by
  cases e <;> rfl

@[simp] theorem saveAndEnter_cfg (e : Exception) (p : Word) (s : State) : (saveAndEnter e p s).cfg = s.cfg := by
  cases e <;> rfl

@[simp] theorem saveAndEnter_inputs (e : Exception) (p : Word) (s : State) :
    (saveAndEnter e p s).inputs = s.inputs := by
  cases e <;> rfl

/-- The data that no exception entry and no reset changes: memory, the stored addresses, the configuration, the inputs. -/
def SameData (s t : State) : Prop := t.mem = s.mem ∧ t.stored = s.stored ∧ t.cfg = s.cfg ∧ t.inputs = s.inputs

/-- An exception entry keeps the data and the general registers. -/
theorem takeException_keeps {e : Exception} {p : Word} {s t : State} (h : takeException e p s = .next t) :
    SameData s t ∧ t.regs = s.regs := by
  obtain ⟨rfl, -⟩ := takeException_next h
  simp [SameData]

/-- A manual reset keeps the data, and leaves slot 0 of the registers zero. -/
theorem manualReset_keeps {s t : State} (h : manualReset s = .next t) : SameData s t ∧ t.regs[0] = 0#32 := by
  obtain ⟨rfl, -⟩ := jumpThroughVector_next h
  simp [SameData]

/-- A debug bootstrap keeps the data, and leaves slot 0 of the registers zero. -/
theorem debugBootstrap_keeps {s t : State} (h : debugBootstrap s = .next t) : SameData s t ∧ t.regs[0] = 0#32 := by
  obtain ⟨rfl, -⟩ := jumpThroughVector_next h
  simp [SameData]

/-! ### The canonical form -/

/-- The canonical form depends on memory, the stored addresses and slot 0 alone. -/
theorem canonical_congr {s t : State} (hs : s.canonical = true) (hmem : t.mem = s.mem) (hstored : t.stored = s.stored)
    (hslot : t.regs[0] = s.regs[0]) : t.canonical = true := by
  rw [canonical_iff] at hs ⊢
  rwa [hmem, hstored, hslot]

/-- A reset keeps the canonical form: its free registers have slot 0 zero. -/
theorem canonical_of_reset {s t : State} (hs : s.canonical = true) (h : SameData s t ∧ t.regs[0] = 0#32) :
    t.canonical = true := by
  obtain ⟨⟨hmem, hstored, -, -⟩, hslot⟩ := h
  obtain ⟨-, -, hs0⟩ := (canonical_iff s).mp hs
  exact canonical_congr hs hmem hstored (hslot.trans hs0.symm)

/-- An exception entry keeps the canonical form. -/
theorem takeException_canonical {e : Exception} {p : Word} {s t : State} (hs : s.canonical = true)
    (h : takeException e p s = .next t) : t.canonical = true := by
  obtain ⟨⟨hmem, hstored, -, -⟩, hregs⟩ := takeException_keeps h
  exact canonical_congr hs hmem hstored (by rw [hregs])

/-- An aligned access ends within the address space (20_memory.md R68). -/
theorem aligned_access_fits {a : Word} {sz : Size} (h : a.toNat % sz.bytes = 0) : a.toNat + sz.bytes ≤ 2 ^ 32 := by
  have ha := a.isLt
  cases sz <;> simp only [Size.bytes] at * <;> omega

/-- The memory effect of an instruction keeps memory and the stored addresses canonical: the place of an aligned store
stays aligned through translation, so that no byte of it lies past the end of memory. -/
theorem memoryEffect_canonical {i : Instr} {s t : State} (hwf : s.mem.wf = true) (hrise : risesFrom 0 s.stored = true)
    (h : MemoryEffect i s t) : t.mem.wf = true ∧ risesFrom 0 t.stored = true := by
  rcases h with ⟨hmem, hstored | hstored⟩ | ⟨d, v, -, -, hal, hmem, hstored⟩
  · rw [hmem, hstored]; exact ⟨hwf, hrise⟩
  · rw [hmem, hstored]; exact ⟨hwf, rfl⟩
  · have hphys := physical_aligned (s := s) (k := .write) hal
    rw [hmem, hstored]
    exact ⟨wf_store _ _ _ _ _ hphys hwf, risesFrom_markBytes _ _ _ hrise (aligned_access_fits hphys)⟩

/-- Every instruction keeps the canonical form. -/
theorem exec_canonical {i : Instr} {s t : State} (hs : s.canonical = true) (h : exec i s = .next t) :
    t.canonical = true := by
  rcases exec_did h with ⟨e, p, u, ⟨-, hmem, hstored, -, -, -, hslot, -⟩, hu⟩ | ⟨-, -, hslot, -, heffect, -, -⟩
  · exact takeException_canonical (canonical_congr hs hmem hstored hslot) hu
  · obtain ⟨hwf, hrise, hs0⟩ := (canonical_iff s).mp hs
    obtain ⟨hwf', hrise'⟩ := memoryEffect_canonical hwf hrise heffect
    exact (canonical_iff t).mpr ⟨hwf', hrise', hslot.trans hs0⟩

/-- Settles O18, by the cases of `step_did`: a reset, a wait, an exception entry, or an instruction. -/
theorem stepKeepsCanonical : Obligations.StepKeepsCanonical := by
  unfold Obligations.StepKeepsCanonical
  intro s t hs h
  have hc : (consumeInput s).canonical = true := hs
  rcases step_did h with h | h | rfl | ⟨e, p, u, -, hmem, hstored, -, -, hregs, hu⟩ | ⟨w, i, -, -, h⟩
  · exact canonical_of_reset hc (debugBootstrap_keeps h)
  · exact canonical_of_reset hc (manualReset_keeps h)
  · exact hc
  · exact takeException_canonical (canonical_congr hs hmem hstored (by rw [hregs])) hu
  · exact exec_canonical hc h

/-! ### The configuration and the input records -/

/-- No instruction changes the configuration or consumes an input record. -/
theorem exec_keeps_cfg_inputs {i : Instr} {s t : State} (h : exec i s = .next t) :
    t.cfg = s.cfg ∧ t.inputs = s.inputs := by
  rcases exec_did h with ⟨e, p, u, ⟨-, -, -, hcfg, hinputs, -, -, -⟩, hu⟩ | ⟨hcfg, hinputs, -⟩
  · obtain ⟨⟨-, -, hcfg', hinputs'⟩, -⟩ := takeException_keeps hu
    exact ⟨hcfg'.trans hcfg, hinputs'.trans hinputs⟩
  · exact ⟨hcfg, hinputs⟩

/-- Settles O20, by the cases of `step_did`; the record is consumed before any of them. -/
theorem stepKeepsConfiguration : Obligations.StepKeepsConfiguration := by
  unfold Obligations.StepKeepsConfiguration
  intro s t h
  rcases step_did h with h | h | rfl | ⟨e, p, u, -, -, -, hcfg, hinputs, -, hu⟩ | ⟨w, i, -, -, h⟩
  · obtain ⟨⟨-, -, hcfg, hinputs⟩, -⟩ := debugBootstrap_keeps h
    exact ⟨hcfg, hinputs⟩
  · obtain ⟨⟨-, -, hcfg, hinputs⟩, -⟩ := manualReset_keeps h
    exact ⟨hcfg, hinputs⟩
  · exact ⟨rfl, rfl⟩
  · obtain ⟨⟨-, -, hcfg', hinputs'⟩, -⟩ := takeException_keeps hu
    exact ⟨hcfg'.trans hcfg, hinputs'.trans hinputs⟩
  · exact exec_keeps_cfg_inputs h

/-! ### The frame of memory -/

/-- An instruction leaves memory as it is, or stores once at its access. -/
theorem exec_mem {i : Instr} {s t : State} (h : exec i s = .next t) :
    t.mem = s.mem ∨ ∃ d v, writesMemory i = true ∧ dataAccess i s = some d ∧
      t.mem = s.mem.store s.cfg.endian (s.physical .write d.addr) v d.size := by
  rcases exec_did h with ⟨e, p, u, ⟨-, hmem, -⟩, hu⟩ | ⟨-, -, -, -, heffect, -, -⟩
  · obtain ⟨⟨hmem', -⟩, -⟩ := takeException_keeps hu
    exact .inl (hmem'.trans hmem)
  · rcases heffect with ⟨hmem, -⟩ | ⟨d, v, hw, hd, -, hmem, -⟩
    · exact .inl hmem
    · exact .inr ⟨d, v, hw, hd, hmem⟩

/-- Every store and SWAP has a data access (20_memory.md R71). -/
theorem dataAccess_of_writesMemory {i : Instr} (s : State) (h : writesMemory i = true) :
    ∃ d, dataAccess i s = some d := by
  cases i
  case sr8 | sr16 | sr32 | sx16 | sx32 | sd8 | sd16 | sd32 | swap => exact ⟨_, rfl⟩
  all_goals cases h

/-- Settles O24: what `exec` can do to memory is one store, at the access of a store or SWAP. -/
theorem memoryFrame : Obligations.MemoryFrame := by
  unfold Obligations.MemoryFrame
  refine ⟨fun i s t a h hno => ?_, fun i s t h hw => ?_⟩
  · rcases exec_mem h with hmem | ⟨d, v, hw, -⟩
    · rw [hmem]
    · rw [hno] at hw; cases hw
  · obtain ⟨d, hd⟩ := dataAccess_of_writesMemory s hw
    refine ⟨d, hd, fun a ha => ?_⟩
    rcases exec_mem h with hmem | ⟨d', v, -, hd', hmem⟩
    · rw [hmem]
    · cases hd.symm.trans hd'
      rw [hmem]
      exact read_store_other _ _ _ _ _ _ (by unfold DataAccess.covers at ha; omega)

/-! ### Byte order -/

/-- The lowest bit, in a stored word, of the byte at offset `k` from its address (20_memory.md R61). -/
def byteBit : Endian → Nat → Nat
  | .big, k => 24 - 8 * k
  | .little, k => 8 * k

/-- The byte at offset `k` of a stored word. -/
theorem read_write32 (e : Endian) (m : Memory) (a : Nat) (v : Word) (k : Nat) (hk : k < 4) :
    (m.write32 e a v).read (a + k) = v.extractLsb' (byteBit e k) 8 := by
  have hk : k = 0 ∨ k = 1 ∨ k = 2 ∨ k = 3 := by omega
  rcases hk with rfl | rfl | rfl | rfl <;> cases e <;>
    simp [Memory.write32, byteBit, read_write_other]

/-- An offset inside an aligned word does not wrap. -/
theorem aligned_offset_toNat {a : Word} {k : Nat} (ha : a.toNat % 4 = 0) (hk : k < 4) :
    (a + BitVec.ofNat 32 k).toNat = a.toNat + k := by
  rw [BitVec.toNat_add, BitVec.toNat_ofNat]; omega

/-- A word's value from its bytes, the most significant first. -/
theorem append4_toNat (b3 b2 b1 b0 : Byte) :
    (b3 ++ b2 ++ b1 ++ b0).toNat = b3.toNat * 2 ^ 24 + b2.toNat * 2 ^ 16 + b1.toNat * 2 ^ 8 + b0.toNat := by
  simp only [append_toNat]; omega

/-- Four bytes side by side are two halves side by side. -/
theorem append4_halves (b3 b2 b1 b0 : Byte) : b3 ++ b2 ++ b1 ++ b0 = (b3 ++ b2) ++ (b1 ++ b0) := by
  apply BitVec.eq_of_toNat_eq
  simp only [append_toNat]; omega

/-- Settles O26: the layouts by `append_toNat`, the values of R67 byte by byte from `read_write32`. -/
theorem byteOrder : Obligations.ByteOrder := by
  unfold Obligations.ByteOrder
  refine ⟨fun m a => ⟨append4_toNat .., append4_toNat .., append_toNat .., append_toNat .., append4_halves ..,
    append4_halves ..⟩, fun m a ha => ?_⟩
  have h2 : (a + 2#32).toNat = a.toNat + 2 := aligned_offset_toNat ha (by omega)
  have h3 : (a + 3#32).toNat = a.toNat + 3 := aligned_offset_toNat ha (by omega)
  have byteIs (e : Endian) := read_write32 e m a.toNat 0x11223344#32
  have b0 (e : Endian) := byteIs e 0 (by omega)
  have b1 (e : Endian) := byteIs e 1 (by omega)
  have b2 (e : Endian) := byteIs e 2 (by omega)
  have b3 (e : Endian) := byteIs e 3 (by omega)
  rw [Nat.add_zero] at b0
  simp only [Memory.store, Memory.load, Memory.read16, h2, h3, Nat.add_assoc, Nat.reduceAdd, b0, b1, b2, b3]
  decide

/-- Settles O27, by the width of the access: its bytes are read back as stored, and `read_store_other` is the frame. -/
theorem storeThenLoad : Obligations.StoreThenLoad := by
  unfold Obligations.StoreThenLoad
  refine fun e m a v sz => ⟨?_, fun x hx => read_store_other e m a v sz x hx⟩
  cases sz with
  | byte => simp [Memory.store, Memory.load, Size.bytes]; omega
  | half => simp [Memory.store, Memory.load, Size.bytes, read16_write16]; omega
  | word =>
    rw [Memory.store, Memory.load, read32_write32]
    exact (Nat.mod_eq_of_lt v.isLt).symm

/-! ### The outcomes of a data access -/

/-- A misaligned access stops where the configuration keeps the spec's choice (20_memory.md R69). -/
theorem checkAccess_misaligned_stops {s : State} {d : DataAccess} (h : d.addr.toNat % d.size.bytes ≠ 0)
    (hpol : s.cfg.misaligned = .refuse) : checkAccess s d = .misaligned := by
  simp [checkAccess, isMisaligned, h, hpol]

/-- A misaligned access is a DFAULT where the configuration says so (20_memory.md R69). -/
theorem checkAccess_misaligned_dfault {s : State} {d : DataAccess} (h : d.addr.toNat % d.size.bytes ≠ 0)
    (hpol : s.cfg.misaligned = .dfault) : checkAccess s d = .dfault := by
  simp [checkAccess, isMisaligned, h, hpol]

/-- An aligned access that the platform refuses for one of its kinds is a DFAULT. -/
theorem checkAccess_refused {s : State} {d : DataAccess} {k : AccessKind} (h : d.addr.toNat % d.size.bytes = 0)
    (hk : k ∈ d.kinds) (hf : accessFault s.cfg d.addr d.size.bytes k s.sr.sm = true) :
    checkAccess s d = .dfault := by
  have hany : (d.kinds.any fun k => accessFault s.cfg d.addr d.size.bytes k s.sr.sm) = true :=
    List.any_eq_true.mpr ⟨k, hk, hf⟩
  simp [checkAccess, isMisaligned, h, hany]

/-- An aligned access that the platform allows for all its kinds passes. -/
theorem checkAccess_allowed {s : State} {d : DataAccess} (h : d.addr.toNat % d.size.bytes = 0)
    (hf : ∀ k ∈ d.kinds, accessFault s.cfg d.addr d.size.bytes k s.sr.sm = false) : checkAccess s d = .ok := by
  have hany : (d.kinds.any fun k => accessFault s.cfg d.addr d.size.bytes k s.sr.sm) = false :=
    List.any_eq_false.mpr fun k hk => by simp [hf k hk]
  simp [checkAccess, isMisaligned, h, hany]

/-- An access that is a DFAULT enters with its own address saved (60_exceptions.md R283). -/
theorem withAccess_dfault_enters {d : DataAccess} {s : State} {go : Result} (h : checkAccess s d = .dfault)
    (hv : vectorReadable s 0x18#32) : Completes (withAccess d s go) (EntersNonDebug s 0x18#32 s.pc) := by
  rw [withAccess, h]
  exact takeException_nonDebug (e := .dfault) rfl hv

/-- `o` is the access `d` with its checks, and past them a state at the following instruction. -/
def ChecksThenAdvances (d : DataAccess) (s : State) (o : Result) : Prop :=
  ∃ t, o = withAccess d s (.next t) ∧ t.pc = s.pc + 4#32

theorem loadInto_checks (ra : RegNo) (x : Extend) (d : DataAccess) (s : State) :
    ChecksThenAdvances d s (loadInto ra x d s) := ⟨_, rfl, by simp⟩

theorem storeFrom_checks (ra : RegNo) (d : DataAccess) (s : State) :
    ChecksThenAdvances d s (storeFrom ra d s) := ⟨_, rfl, by simp⟩

theorem swapWith_checks (ra : RegNo) (d : DataAccess) (s : State) :
    ChecksThenAdvances d s (swapWith ra d s) := ⟨_, rfl, by simp⟩

/-- An instruction with a data access makes that access, with its checks, and advances. -/
theorem exec_checks {i : Instr} {s : State} {d : DataAccess} (h : dataAccess i s = some d) :
    ChecksThenAdvances d s (exec i s) := by
  cases i
  case lr8 | lr8u | lr16 | lr16u | lr32 | lx16 | lx16u | lx32 | ld8 | ld8u | ld16 | ld16u | ld32 =>
    cases h; exact loadInto_checks ..
  case sr8 | sr16 | sr32 | sx16 | sx32 | sd8 | sd16 | sd32 => cases h; exact storeFrom_checks ..
  case swap => cases h; exact swapWith_checks ..
  all_goals cases h

/-- Settles O29: every such instruction is `withAccess` of its access, decided by `checkAccess`. -/
theorem dataAccessOutcomes : Obligations.DataAccessOutcomes := by
  unfold Obligations.DataAccessOutcomes
  intro i s d hd
  obtain ⟨t, hexec, hpc⟩ := exec_checks hd
  rw [hexec]
  refine ⟨fun hmis hpol => ?_, fun hmis hpol hv => ?_, fun k hal hk hf hv => ?_, fun hal hf => ?_⟩
  · rw [withAccess, checkAccess_misaligned_stops hmis hpol]
  · exact withAccess_dfault_enters (checkAccess_misaligned_dfault hmis hpol) hv
  · exact withAccess_dfault_enters (checkAccess_refused hal hk hf) hv
  · rw [withAccess, checkAccess_allowed hal hf]
    exact ⟨t, rfl, hpc⟩

/-! ### The stops of the fetch -/

/-- A running CPU with no reset requested runs the instruction at `pc` (70_reset_and_hazards.md R345). -/
theorem step_running {s : State} (hp : s.power = .running) (hboot : (currentInput s).dboot = false)
    (hreset : (currentInput s).manualReset = false) : step s = runAtPc (currentInput s) (consumeInput s) := by
  have hp' : (consumeInput s).power = .running := hp
  simp [step, cycle, hboot, hreset, hp']

/-- The fetch of a byte in the record of stores, where the platform does not say that fetch sees stores. -/
theorem fetch_storedByte {s : State} {k : Nat} (hacc : accessFault s.cfg s.pc 4 .fetch s.sr.sm = false)
    (hsees : s.cfg.fetchSeesStores = false) (hk : k < 4) (hmem : (s.physical .fetch s.pc).toNat + k ∈ s.stored) :
    fetch s = .storedByte := by
  have hstored : fetchesStoredByte s = true := by
    simp only [fetchesStoredByte, hsees, Bool.not_false, Bool.true_and, List.any_eq_true, List.mem_range,
      List.contains_iff_mem]
    exact ⟨k, hk, hmem⟩
  simp [fetch, hacc, hstored]

/-- Settles O9: the misaligned `pc` stops before all else, the stored byte after the debug break and the access check. -/
theorem fetchStops : Obligations.FetchStops := by
  unfold Obligations.FetchStops
  refine ⟨fun s hp hboot hreset hpc => ?_, fun s k hp hal hund hacc hsees hk hmem => ?_⟩
  · have hmis : pcMisaligned (consumeInput s) = true := decide_eq_true hpc
    rw [step_running hp hboot hreset, runAtPc, if_pos hmis]
  · obtain ⟨hboot, hreset, hdebug, -⟩ := hund
    have hmis : ¬pcMisaligned (consumeInput s) = true := by
      simpa [State.pcAligned] using (show (consumeInput s).pcAligned = true from hal)
    have hbreak : ¬((currentInput s).instrBreak && (consumeInput s).sr.de) = true := by
      rw [Bool.and_eq_true]
      rintro ⟨hib, hde⟩
      rw [(hdebug hde).1] at hib
      cases hib
    have hfetch : fetch (consumeInput s) = .storedByte := fetch_storedByte hacc hsees hk hmem
    rw [step_running hp hboot hreset, runAtPc, if_neg hmis, if_neg hbreak, hfetch]

end Sys2Proof.MemoryProofs
end

section
/-! PROOFS. Encoding (30_encoding.md): decoding undoes encoding, the rows of the opcode table delimit the decoder, and the
reserved words, "Don't care" bits and printed-zero bits. -/

namespace Sys2Proof.EncodingProofs

open Sys2Proof Sys2Proof.Machine
open Sys2Proof.Laws.EncodingMatchesRow (kept six sixShift sixCmd tenId twentyOne)

/-! ### A word and its slots -/

/-- A word is its six slots side by side (R91). -/
theorem wordSix_slots (w : Word) : wordSix (op1Of w) (slotA w) (slotB w) (op2Of w) (slotH w) (slotL w) = w := by
  change w.extractLsb' 26 6 ++ w.extractLsb' 21 5 ++ w.extractLsb' 16 5 ++ w.extractLsb' 10 6 ++ w.extractLsb' 5 5 ++
    w.extractLsb' 0 5 = w
  rw [extract_append w 21 6 5, extract_append w 16 (6 + 5) 5, extract_append w 10 (6 + 5 + 5) 6,
    extract_append w 5 (6 + 5 + 5 + 6) 5, extract_append w 0 (6 + 5 + 5 + 6 + 5) 5]
  exact extract_all w

/-- A word with its low ten bits as I10 (Format 4 of R91). -/
theorem wordI10_slots (w : Word) : wordI10 (op1Of w) (slotA w) (slotB w) (op2Of w) (imm10 w) = w := by
  change w.extractLsb' 26 6 ++ w.extractLsb' 21 5 ++ w.extractLsb' 16 5 ++ w.extractLsb' 10 6 ++ w.extractLsb' 0 10 = w
  rw [extract_append w 21 6 5, extract_append w 16 (6 + 5) 5, extract_append w 10 (6 + 5 + 5) 6,
    extract_append w 0 (6 + 5 + 5 + 6) 10]
  exact extract_all w

/-- A word is OP1, slot A and I21 side by side (Format 6 of R91). -/
theorem wordI21_slots (w : Word) : wordI21 (op1Of w) (slotA w) (imm21 w) = w := by
  change w.extractLsb' 26 6 ++ w.extractLsb' 21 5 ++ w.extractLsb' 0 21 = w
  rw [extract_append w 21 6 5, extract_append w 0 (6 + 5) 21]
  exact extract_all w

theorem slotA_eq_append (w : Word) : slotA w = w.extractLsb' 25 1 ++ cmdOf w := (extract_append w 21 1 4).symm

theorem slotB_eq_append (w : Word) : slotB w = w.extractLsb' 19 2 ++ idOf w := (extract_append w 16 2 3).symm

/-- Bit 25 is the top of slot A. -/
theorem bit25_of_slotA {w : Word} {t : BitVec 1} {cmd : BitVec 4} (h : slotA w = t ++ cmd) :
    w.extractLsb' 25 1 = t := by
  have := congrArg (BitVec.extractLsb' 4 1) ((slotA_eq_append w).symm.trans h)
  simpa only [append_high _ _ 0, extract_all] using this

/-- Bits 20 and 19 are the top of slot B. -/
theorem bits20_19_of_slotB {w : Word} {t : BitVec 2} {id : BitVec 3} (h : slotB w = t ++ id) :
    w.extractLsb' 19 2 = t := by
  have := congrArg (BitVec.extractLsb' 3 2) ((slotB_eq_append w).symm.trans h)
  simpa only [append_high _ _ 0, extract_all] using this

theorem cmdOf_of_slotA {w : Word} {t : BitVec 1} {cmd : BitVec 4} (h : slotA w = t ++ cmd) : cmdOf w = cmd := by
  have := congrArg (BitVec.extractLsb' 0 4) ((slotA_eq_append w).symm.trans h)
  simpa only [append_low] using this

theorem idOf_of_slotB {w : Word} {t : BitVec 2} {id : BitVec 3} (h : slotB w = t ++ id) : idOf w = id := by
  have := congrArg (BitVec.extractLsb' 0 3) ((slotB_eq_append w).symm.trans h)
  simpa only [append_low] using this

/-! ### Decoding an encoded instruction -/

section
variable {w : Word} {op1 op2 : BitVec 6} {a b h l : BitVec 5}

theorem wordSix_fields (hw : wordSix op1 a b op2 h l = w) :
    op1Of w = op1 ∧ op2Of w = op2 ∧ slotA w = a ∧ slotB w = b ∧ slotH w = h ∧ slotL w = l := by
  subst hw
  exact ⟨wordSix_op1Of .., wordSix_op2Of .., wordSix_slotA .., wordSix_slotB .., wordSix_slotH .., wordSix_slotL ..⟩

theorem wordI10_fields {i : BitVec 10} (hw : wordI10 op1 a b op2 i = w) :
    op1Of w = op1 ∧ op2Of w = op2 ∧ slotA w = a ∧ slotB w = b ∧ imm10 w = i := by
  subst hw
  exact ⟨wordI10_op1Of .., wordI10_op2Of .., wordI10_slotA .., wordI10_slotB .., wordI10_imm10 ..⟩

theorem wordI16_fields {i : BitVec 16} (hw : wordI16 op1 a b i = w) :
    op1Of w = op1 ∧ slotA w = a ∧ slotB w = b ∧ imm16 w = i := by
  subst hw
  exact ⟨wordI16_op1Of .., wordI16_slotA .., wordI16_slotB .., wordI16_imm16 ..⟩

theorem wordI21_fields {i : BitVec 21} (hw : wordI21 op1 a i = w) : op1Of w = op1 ∧ slotA w = a ∧ imm21 w = i := by
  subst hw
  exact ⟨wordI21_op1Of .., wordI21_slotA .., wordI21_imm21 ..⟩

end

/-- The word of an instruction decodes to it. The word is kept as a variable: the decoder reads its fields alone. -/
theorem decode_of_encode_eq {w : Word} {i : Instr} (hw : encode i = w) : decode w = .ok i := by
  cases i
  case lhi | j =>
    obtain ⟨h1, ha, hi⟩ := wordI21_fields hw
    simp only [decode, h1, ha, hi]
  case andi | ori | xori =>
    obtain ⟨h1, ha, hb, hi⟩ := wordI16_fields hw
    simp only [decode, h1, ha, hb, hi]
  case addi | ja =>
    obtain ⟨h1, h2, ha, hb, hi⟩ := wordI10_fields hw
    simp only [decode, h1, decodeImmediate, h2, ha, hb, hi]
  case icache | dcache =>
    obtain ⟨h1, h2, ha, hb, hi⟩ := wordI10_fields hw
    simp only [decode, h1, decodeImmediate, h2, bit25_of_slotA ha, cmdOf_of_slotA ha, hb, hi, requireZero, decide_true,
      if_true]
  case slli | slri | sari =>
    obtain ⟨h1, h2, ha, hb, hh, hl⟩ := wordSix_fields hw
    simp only [decode, h1, decodeImmediate, h2, ha, hb, hh, hl, requireZero, decide_true, if_true]
  case itlb | dtlb =>
    obtain ⟨h1, h2, ha, hb, -, -⟩ := wordSix_fields hw
    simp only [decode, h1, decodeImmediate, h2, bit25_of_slotA ha, cmdOf_of_slotA ha, hb, requireZero, decide_true,
      if_true]
  case csb | brev =>
    obtain ⟨h1, h2, ha, hb, -, -⟩ := wordSix_fields hw
    simp only [decode, h1, decodeImmediate, h2, ha, hb]
  case add | sub | mulu | mul | seq | sne | slt | sge | sltu | sgeu | and | or | xor | andn | sll | slr | sar | mvz
      | mvnz =>
    obtain ⟨h1, h2, ha, hb, hh, hl⟩ := wordSix_fields hw
    simp only [decode, h1, decodeRegister, h2, ha, hb, hh, hl]
  case beqi | bnei | bequi | bneui | blti | bgei | bltui | bgeui =>
    obtain ⟨h1, h2, ha, hb, hi⟩ := wordI10_fields hw
    simp only [decode, h1, decodeBranchImm, h2, ha, hb, hi]
  case beq | bne | blt | bge | bltu | bgeu =>
    obtain ⟨h1, h2, ha, hb, hi⟩ := wordI10_fields hw
    simp only [decode, h1, decodeBranchReg, h2, ha, hb, hi]
  case ld8 | ld8u | ld16 | ld16u | ld32 | sd8 | sd16 | sd32 | swap =>
    obtain ⟨h1, h2, ha, hb, hi⟩ := wordI10_fields hw
    simp only [decode, h1, decodeMemImm, h2, ha, hb, hi]
  case lr8 | lr8u | lr16 | lr16u | lr32 | lx16 | lx16u | lx32 | sr8 | sr16 | sr32 | sx16 | sx32 =>
    obtain ⟨h1, h2, ha, hb, -, hl⟩ := wordSix_fields hw
    simp only [decode, h1, decodeMemReg, h2, ha, hb, hl]
  case cld | cst =>
    obtain ⟨h1, h2, ha, hb, hi⟩ := wordI10_fields hw
    simp only [decode, h1, decodeSystem, h2, ha, bits20_19_of_slotB hb, idOf_of_slotB hb, hi, requireZero, decide_true,
      if_true]
  case trap =>
    obtain ⟨h1, h2, ha, -, hi⟩ := wordI10_fields hw
    simp only [decode, h1, decodeSystem, h2, ha, hi]
  case rcr | wcr | sbrk | rte | sleep =>
    obtain ⟨h1, h2, ha, -, -, hl⟩ := wordSix_fields hw
    simp only [decode, h1, decodeSystem, h2, ha, hl]

theorem decode_encode (i : Instr) : decode (encode i) = .ok i := decode_of_encode_eq rfl

theorem decodeBytes_wordToBytes (e : Endian) (w : Word) : decodeBytes e (wordToBytes e w) = decode w := by
  cases e <;> exact congrArg decode (bytes_of_word w)

/-- Settles O1: `decode_encode` as a word, and the word's bytes are put back together in either order. -/
theorem decodeOfEncode : Obligations.DecodeOfEncode := by
  unfold Obligations.DecodeOfEncode
  exact fun i e => ⟨decode_encode i, (decodeBytes_wordToBytes e (encode i)).trans (decode_encode i)⟩

/-! ### Rows -/

/-- The word lies in the row (R111). -/
def InRow (w : Word) (r : OpcodeRow) : Prop := w &&& r.mask = r.code

/-- The word's OP1 and OP2, as far as the row's mask has them, are those of the row (R112). -/
def HasOpcode (w : Word) (r : OpcodeRow) : Prop := w &&& r.mask &&& 0xfc00fc00#32 = r.code

/-- A row's code lies in OP1 and OP2: what R114 prints `0` elsewhere is zero. (`delta` reads the one row in question;
unfolding by equations would first state all 79 of them.) -/
theorem row_code_in_ops (i : Instr) : i.row.code &&& 0xfc00fc00#32 = i.row.code := by
  cases i <;> delta Instr.row <;> dsimp only <;> decide

theorem hasOpcode_of_inRow {w : Word} {i : Instr} (h : InRow w i.row) : HasOpcode w i.row := by
  unfold InRow HasOpcode at *
  rw [h, row_code_in_ops]

/-- A field of a masked word. -/
theorem extract_of_and {w m c : Word} (start len : Nat) (h : w &&& m = c) :
    w.extractLsb' start len &&& m.extractLsb' start len = c.extractLsb' start len := by
  rw [← BitVec.extractLsb'_and, h]

/-- A field that the row prints `0` is zero in its words (R114). -/
theorem field_zero {w : Word} {r : OpcodeRow} (start len : Nat) (h : InRow w r)
    (hmask : r.mask.extractLsb' start len = BitVec.allOnes len) (hcode : r.code.extractLsb' start len = 0#len) :
    w.extractLsb' start len = 0#len := by
  rw [← kept (w.extractLsb' start len), ← hmask, extract_of_and start len h, hcode]

/-- What a row says of OP1 and OP2. -/
theorem opcode_fields {w c m : Word} (h : HasOpcode w ⟨c, m⟩) :
    op1Of w &&& (m &&& 0xfc00fc00#32).extractLsb' 26 6 = c.extractLsb' 26 6 ∧
      op2Of w &&& (m &&& 0xfc00fc00#32).extractLsb' 10 6 = c.extractLsb' 10 6 := by
  have hw : w &&& (m &&& 0xfc00fc00#32) = c := (BitVec.and_assoc ..).symm.trans h
  exact ⟨extract_of_and 26 6 hw, extract_of_and 10 6 hw⟩

theorem and_full6 (x : BitVec 6) : x &&& 0b111111#6 = x := kept x

/-! ### What the decoder gives a word of a row -/

/-- The row of what a word decodes to. -/
def decodedRow (w : Word) : Except DecodeError OpcodeRow := (decode w).map Instr.row

theorem decodedRow_eq_ok {w : Word} {r : OpcodeRow} : decodedRow w = .ok r ↔ ∃ j, decode w = .ok j ∧ j.row = r := by
  unfold decodedRow
  cases decode w <;> simp [Except.map]

/-- The outcome of `requireZero`, where the words of the row have the bits zero. -/
theorem requireZero_row {w : Word} {zero : Bool} {i : Instr} {r : OpcodeRow} (hr : i.row = r)
    (hz : InRow w r → zero = true) :
    (requireZero zero i).map Instr.row = .ok r ∨ (requireZero zero i = .error .mustBeZero ∧ ¬InRow w r) := by
  cases zero
  · exact .inr ⟨rfl, fun hrow => Bool.false_ne_true (hz hrow)⟩
  · exact .inl (congrArg Except.ok hr)

/-- A word with the OP1 and OP2 of a row decodes to an instruction of the row, or a bit that the row prints `0` is set
(R114). -/
theorem decode_of_hasOpcode {w : Word} {i : Instr} (h : HasOpcode w i.row) :
    decodedRow w = .ok i.row ∨ (decode w = .error .mustBeZero ∧ ¬InRow w i.row) := by
  cases i <;> delta Instr.row at h ⊢ <;> dsimp only at h ⊢ <;> obtain ⟨h1, h2⟩ := opcode_fields h <;>
    simp only [BitVec.reduceAnd, BitVec.reduceExtractLsb', and_full6] at h1 h2
  case lhi | j | andi | ori | xori => left; simp only [decodedRow, decode, h1]; rfl
  case addi | ja | csb | brev =>
    left; simp only [decodedRow, decode, h1, decodeImmediate, h2]; rfl
  case add | sub | mulu | mul | seq | sne | slt | sge | sltu | sgeu | and | or | xor | andn | sll | slr | sar | mvz
      | mvnz =>
    left; simp only [decodedRow, decode, h1, decodeRegister, h2]; rfl
  case slli | slri | sari =>
    simp only [decodedRow, decode, h1, decodeImmediate, h2]
    exact requireZero_row rfl fun hrow => decide_eq_true (field_zero 5 5 hrow (by decide) (by decide))
  case itlb | dtlb | icache | dcache =>
    simp only [decodedRow, decode, h1, decodeImmediate, h2]
    exact requireZero_row rfl fun hrow => decide_eq_true (field_zero 25 1 hrow (by decide) (by decide))
  case cld | cst =>
    simp only [decodedRow, decode, h1, decodeSystem, h2]
    exact requireZero_row rfl fun hrow => decide_eq_true (field_zero 19 2 hrow (by decide) (by decide))
  case beqi | bnei | bequi | bneui | blti | bgei | bltui | bgeui =>
    left; simp only [decodedRow, decode, h1, decodeBranchImm, h2]; rfl
  case beq | bne | blt | bge | bltu | bgeu =>
    left; simp only [decodedRow, decode, h1, decodeBranchReg, h2]; rfl
  case ld8 | ld8u | ld16 | ld16u | ld32 | sd8 | sd16 | sd32 | swap =>
    left; simp only [decodedRow, decode, h1, decodeMemImm, h2]; rfl
  case lr8 | lr8u | lr16 | lr16u | lr32 | lx16 | lx16u | lx32 | sr8 | sr16 | sr32 | sx16 | sx32 =>
    left; simp only [decodedRow, decode, h1, decodeMemReg, h2]; rfl
  case rcr | wcr | trap | sbrk | rte | sleep =>
    left; simp only [decodedRow, decode, h1, decodeSystem, h2]; rfl

/-! ### The rows of what the decoder gives -/

/-- What the decoder's answer says of the rows of the word. -/
def AnswerFits (w : Word) : Except DecodeError Instr → Prop
  | .ok i => InRow w i.row
  | .error .reserved => True
  | .error .mustBeZero => ∃ i : Instr, HasOpcode w i.row
  | .error .wrongLength => False

theorem answerFits_requireZero {w : Word} {zero : Bool} {i : Instr} (hop : HasOpcode w i.row)
    (hrow : zero = true → InRow w i.row) : AnswerFits w (requireZero zero i) := by
  cases zero
  · exact ⟨i, hop⟩
  · exact hrow rfl

/-! A word lies in a row when the slots that the row's mask covers read as the row has them. -/

section
variable {w : Word} {op1 op2 : BitVec 6}

theorem inRow_of_op1 (h1 : op1Of w = op1) : InRow w ⟨wordI21 op1 0#5 0#21, 0xfc000000#32⟩ := by
  subst h1
  unfold InRow
  conv_lhs => rw [← wordI21_slots w]
  exact twentyOne ..

theorem inRow_of_ops (h1 : op1Of w = op1) (h2 : op2Of w = op2) :
    InRow w ⟨wordSix op1 0#5 0#5 op2 0#5 0#5, 0xfc00fc00#32⟩ := by
  subst h1 h2
  unfold InRow
  conv_lhs => rw [← wordSix_slots w]
  exact six ..

theorem hasOpcode_of_ops {m : Word} (hm : m &&& 0xfc00fc00#32 = 0xfc00fc00#32) (h1 : op1Of w = op1)
    (h2 : op2Of w = op2) : HasOpcode w ⟨wordSix op1 0#5 0#5 op2 0#5 0#5, m⟩ := by
  rw [HasOpcode, BitVec.and_assoc, hm]
  exact inRow_of_ops h1 h2

theorem inRow_of_shift (h1 : op1Of w = op1) (h2 : op2Of w = op2) (hz : slotH w = 0#5) :
    InRow w ⟨wordSix op1 0#5 0#5 op2 0#5 0#5, 0xfc00ffe0#32⟩ := by
  subst h1 h2
  unfold InRow
  conv_lhs => rw [← wordSix_slots w, hz]
  exact sixShift ..

theorem inRow_of_cmd (h1 : op1Of w = op1) (h2 : op2Of w = op2) (hz : w.extractLsb' 25 1 = 0#1) :
    InRow w ⟨wordSix op1 0#5 0#5 op2 0#5 0#5, 0xfe00fc00#32⟩ := by
  subst h1 h2
  unfold InRow
  conv_lhs => rw [← wordSix_slots w, slotA_eq_append, hz]
  exact sixCmd ..

theorem inRow_of_id (h1 : op1Of w = op1) (h2 : op2Of w = op2) (hz : w.extractLsb' 19 2 = 0#2) :
    InRow w ⟨wordI10 op1 0#5 0#5 op2 0#10, 0xfc18fc00#32⟩ := by
  subst h1 h2
  unfold InRow
  conv_lhs => rw [← wordI10_slots w, slotB_eq_append, hz]
  exact tenId ..

end

theorem decodeImmediate_fits {w : Word} (h1 : op1Of w = 0b000000#6) : AnswerFits w (decodeImmediate w) := by
  unfold decodeImmediate
  split
  case h_1 h2 | h_3 h2 | h_10 h2 | h_11 h2 => exact inRow_of_ops h1 h2
  case h_4 h2 | h_6 h2 | h_8 h2 =>
    exact answerFits_requireZero (hasOpcode_of_ops (by decide) h1 h2)
      fun hz => inRow_of_shift h1 h2 (of_decide_eq_true hz)
  case h_2 h2 | h_5 h2 | h_7 h2 | h_9 h2 =>
    exact answerFits_requireZero (hasOpcode_of_ops (by decide) h1 h2)
      fun hz => inRow_of_cmd h1 h2 (of_decide_eq_true hz)
  case h_12 => trivial

theorem decodeRegister_fits {w : Word} (h1 : op1Of w = 0b000010#6) : AnswerFits w (decodeRegister w) := by
  unfold decodeRegister
  split
  case h_20 => trivial
  all_goals exact inRow_of_ops h1 ‹_›

theorem decodeBranchImm_fits {w : Word} (h1 : op1Of w = 0b000100#6) : AnswerFits w (decodeBranchImm w) := by
  unfold decodeBranchImm
  split
  case h_9 => trivial
  all_goals exact inRow_of_ops h1 ‹_›

theorem decodeBranchReg_fits {w : Word} (h1 : op1Of w = 0b000110#6) : AnswerFits w (decodeBranchReg w) := by
  unfold decodeBranchReg
  split
  case h_7 => trivial
  all_goals exact inRow_of_ops h1 ‹_›

theorem decodeMemImm_fits {w : Word} (h1 : op1Of w = 0b001000#6) : AnswerFits w (decodeMemImm w) := by
  unfold decodeMemImm
  split
  case h_10 => trivial
  all_goals exact inRow_of_ops h1 ‹_›

theorem decodeMemReg_fits {w : Word} (h1 : op1Of w = 0b001010#6) : AnswerFits w (decodeMemReg w) := by
  unfold decodeMemReg
  split
  case h_14 => trivial
  all_goals exact inRow_of_ops h1 ‹_›

theorem decodeSystem_fits {w : Word} (h1 : op1Of w = 0b011001#6) : AnswerFits w (decodeSystem w) := by
  unfold decodeSystem
  split
  case h_6 h2 | h_7 h2 =>
    exact answerFits_requireZero (hasOpcode_of_ops (by decide) h1 h2)
      fun hz => inRow_of_id h1 h2 (of_decide_eq_true hz)
  case h_9 => trivial
  all_goals exact inRow_of_ops h1 ‹_›

/-- What a word decodes to fits its rows, by OP1. -/
theorem decode_fits (w : Word) : AnswerFits w (decode w) := by
  unfold decode
  split
  case h_1 h1 => exact decodeImmediate_fits h1
  case h_2 h1 => exact decodeRegister_fits h1
  case h_3 h1 => exact decodeBranchImm_fits h1
  case h_5 h1 => exact decodeBranchReg_fits h1
  case h_6 h1 => exact decodeMemImm_fits h1
  case h_8 h1 => exact decodeMemReg_fits h1
  case h_12 h1 => exact decodeSystem_fits h1
  case h_4 h1 | h_7 h1 | h_9 h1 | h_10 h1 | h_11 h1 => exact inRow_of_op1 h1
  case h_13 => trivial

theorem inRow_of_decode {w : Word} {i : Instr} (h : decode w = .ok i) : InRow w i.row := by
  have hfits := decode_fits w
  rwa [h] at hfits

/-- Settles O2: a word of a row decodes into it by `decode_of_hasOpcode`, and the converse is `inRow_of_decode`. -/
theorem rowsDelimitTheDecoder : Obligations.RowsDelimitTheDecoder := by
  unfold Obligations.RowsDelimitTheDecoder
  refine fun w i => ⟨fun hrow => ?_, fun ⟨j, hj, hji⟩ => ?_⟩
  · rcases decode_of_hasOpcode (hasOpcode_of_inRow hrow) with hok | ⟨-, hno⟩
    · exact decodedRow_eq_ok.mp hok
    · exact absurd hrow hno
  · rw [← hji]
    exact inRow_of_decode hj

/-- Settles O3: a reserved word has the OP1 and OP2 of no row by `decode_of_hasOpcode`, and every other answer of the
decoder names a row that has them, by `decode_fits`. -/
theorem reservedWords : Obligations.ReservedWords := by
  unfold Obligations.ReservedWords
  refine fun w => ⟨fun hres i hop => ?_, fun hno => ?_⟩
  · rcases decode_of_hasOpcode hop with hok | ⟨hzero, -⟩
    · obtain ⟨j, hj, -⟩ := decodedRow_eq_ok.mp hok
      cases hj.symm.trans hres
    · cases hzero.symm.trans hres
  · have hfits := decode_fits w
    match hd : decode w with
    | .ok i => exact absurd (hasOpcode_of_inRow (inRow_of_decode hd)) (hno i)
    | .error .reserved => rfl
    | .error .mustBeZero =>
      rw [hd] at hfits
      obtain ⟨i, hop⟩ := hfits
      exact absurd hop (hno i)
    | .error .wrongLength =>
      rw [hd] at hfits
      exact hfits.elim

/-! ### "Don't care" bits -/

theorem decodeRegister_slotH (a b : BitVec 5) (op2 : BitVec 6) (h l : BitVec 5) (hu : op2 ≠ 0b010001#6)
    (hs : op2 ≠ 0b110001#6) : decodeRegister (wordSix 0b000010#6 a b op2 h l) =
      decodeRegister (wordSix 0b000010#6 a b op2 0#5 l) := by
  simp only [decodeRegister, wordSix_op2Of, wordSix_slotA, wordSix_slotB, wordSix_slotH, wordSix_slotL]
  split
  case h_11 => exact absurd rfl hu
  case h_19 => exact absurd rfl hs
  all_goals rfl

theorem decodeMemReg_slotH (a b : BitVec 5) (op2 : BitVec 6) (h l : BitVec 5) :
    decodeMemReg (wordSix 0b001010#6 a b op2 h l) = decodeMemReg (wordSix 0b001010#6 a b op2 0#5 l) := by
  simp only [decodeMemReg, wordSix_op2Of, wordSix_slotA, wordSix_slotB, wordSix_slotL]

/-- Settles O4: the decoder reads the slots of a built word, and none of them is a "Don't care" one. -/
theorem dontCareBitsIgnored : Obligations.DontCareBitsIgnored := by
  unfold Obligations.DontCareBitsIgnored
  refine ⟨fun a b op2 h l hu hs => ?_, fun a b op2 h l => ?_, fun ra rb x => ?_, fun cmd rb x => ?_,
    fun ra x y cr => ?_, fun ra x s10 => ?_, fun x y z => ?_⟩
  · simp only [decode, wordSix_op1Of, decodeRegister_slotH a b op2 h l hu hs]
  · simp only [decode, wordSix_op1Of, decodeMemReg_slotH a b op2 h l]
  · simp [decode, decodeImmediate]
  · simp [decode, decodeImmediate, requireZero]
  · simp [decode, decodeSystem]
  · simp [decode, decodeSystem]
  · simp [decode, decodeSystem]

/-! ### Printed-zero bits -/

/-- An undisturbed step that fetches a word runs it (70_reset_and_hazards.md R345). -/
theorem step_of_fetches {s : State} {w : Word} (hund : undisturbed s) (hf : fetches s w) :
    step s = runWord w (currentInput s) (consumeInput s) := by
  obtain ⟨hboot, hreset, hdebug, -⟩ := hund
  obtain ⟨hp, hal, hfetch⟩ := hf
  have hmis : ¬pcMisaligned (consumeInput s) = true := by
    simpa [State.pcAligned] using (show (consumeInput s).pcAligned = true from hal)
  have hbreak : ¬((currentInput s).instrBreak && (consumeInput s).sr.de) = true := by
    rw [Bool.and_eq_true]
    rintro ⟨hib, hde⟩
    rw [(hdebug hde).1] at hib
    cases hib
  have hfetch' : fetch (consumeInput s) = .word w := hfetch
  rw [MemoryProofs.step_running hp hboot hreset, runAtPc, if_neg hmis, if_neg hbreak, hfetch']

/-- Settles O5: the set bit fails `requireZero`, and `runWord` refuses the word. -/
theorem printedZeroBits : Obligations.PrintedZeroBits := by
  unfold Obligations.PrintedZeroBits
  refine ⟨fun a b op2 h l hop2 hh => ?_, fun cmd b op2 x hop2 => ?_, fun a z id op2 x hop2 hz => ?_,
    fun s w hund hf hw => ?_⟩
  · rcases hop2 with rfl | rfl | rfl <;> simp [decode, decodeImmediate, requireZero, hh]
  · have hbit : (wordI10 0b000000#6 (0b1#1 ++ cmd) b op2 x).extractLsb' 25 1 = 1#1 :=
      bit25_of_slotA (wordI10_slotA ..)
    rcases hop2 with rfl | rfl | rfl | rfl <;> simp [decode, decodeImmediate, requireZero, hbit]
  · have hbits : (wordI10 0b011001#6 a (z ++ id) op2 x).extractLsb' 19 2 = z := bits20_19_of_slotB (wordI10_slotB ..)
    rcases hop2 with rfl | rfl <;> simp [decode, decodeSystem, requireZero, hbits, hz]
  · rw [step_of_fetches hund hf, runWord, hw]

end Sys2Proof.EncodingProofs
end

section
/-! PROOFS. The immediate load (40_immediate_load.md): what LHI writes, and the pair of LHI and ORI that `mova` stands for
(30_encoding.md R121). -/

namespace Sys2Proof.ImmediateLoadProofs

open Sys2Proof Sys2Proof.Machine

/-! ### The instructions of the pair -/

/-- LHI completes: its 21 bits into bits 31..11 of the register, zeros below (R130). -/
theorem lhi_completes (ra : RegNo) (u21 : BitVec 21) (s : State) :
    Completes (exec (.lhi ra u21) s) (OnlyReg s ra (zext u21 <<< 11)) :=
  writeAndAdvance_completes ra _ s

/-- ORI completes: the OR with its immediate, which is sign-extended (45_bitwise.md R186). -/
theorem ori_completes (ra rb : RegNo) (s16 : BitVec 16) (s : State) :
    Completes (exec (.ori ra rb s16) s) (OnlyReg s ra (s.reg rb ||| sext s16)) :=
  writeAndAdvance_completes ra _ s

/-- What `OnlyReg` says of `pc` and the general registers, where the destination is not R0. -/
theorem reads_of_onlyReg {s t : State} {ra : RegNo} {v : Word} (hra : ra ≠ 0#5) (h : OnlyReg s ra v t) :
    t.reg ra = v ∧ t.pc = s.pc + 4#32 ∧ ∀ r, r ≠ ra → t.reg r = s.reg r := by
  obtain ⟨hpc, hregs, -⟩ := h
  refine ⟨?_, hpc, fun r hr => ?_⟩
  · rw [hregs, if_pos ⟨rfl, hra⟩]
  · rw [hregs, if_neg fun ⟨heq, _⟩ => hr heq]

/-! ### The two parts of a word -/

/-- The value of LHI as a number: 21 bits shifted by 11 places lose none. -/
theorem zext_shiftLeft_toNat (u21 : BitVec 21) : (zext u21 <<< 11).toNat = u21.toNat * 2 ^ 11 := by
  rw [zext, BitVec.toNat_shiftLeft, BitVec.toNat_setWidth, Nat.shiftLeft_eq]
  omega

/-- `@h21` (30_encoding.md R120) as a number. -/
theorem opH21_toNat (v : Word) : (opH21 v).toNat = v.toNat / 2 ^ 11 := by
  rw [opH21, BitVec.toNat_setWidth, BitVec.toNat_ushiftRight, Nat.shiftRight_eq_div_pow]
  omega

/-- `@l11` (30_encoding.md R120) as a number. -/
theorem opL11_toNat (v : Word) : (opL11 v).toNat = v.toNat % 2 ^ 11 := by
  have hmask : (v &&& 0x7ff#32).toNat = v.toNat % 2 ^ 11 :=
    (BitVec.toNat_and ..).trans (Nat.and_two_pow_sub_one_eq_mod v.toNat 11)
  rw [opL11, BitVec.toNat_setWidth, hmask]
  omega

/-- ORI's sign extension leaves `@l11` as it is: its bit 15 is 0 (R131). -/
theorem sext_opL11_toNat (v : Word) : (sext (opL11 v)).toNat = v.toNat % 2 ^ 11 := by
  have hlow := opL11_toNat v
  have hmsb : (opL11 v).msb = false := BitVec.msb_eq_false_iff_two_mul_lt.mpr (by omega)
  rw [sext, BitVec.signExtend_eq_setWidth_of_msb_false hmsb, BitVec.toNat_setWidth, hlow]
  omega

/-- The high 21 bits in LHI's place, with the low 11 bits, are the whole word: the two do not overlap, so that their OR is
their sum (R131). -/
theorem opH21_shiftLeft_or_opL11 (v : Word) : zext (opH21 v) <<< 11 ||| sext (opL11 v) = v := by
  apply BitVec.eq_of_toNat_eq
  have hlow : v.toNat % 2 ^ 11 < 2 ^ 11 := Nat.mod_lt _ (by decide)
  calc (zext (opH21 v) <<< 11 ||| sext (opL11 v)).toNat
      = 2 ^ 11 * (v.toNat / 2 ^ 11) ||| v.toNat % 2 ^ 11 := by
        rw [BitVec.toNat_or, zext_shiftLeft_toNat, opH21_toNat, sext_opL11_toNat, Nat.mul_comm]
    _ = 2 ^ 11 * (v.toNat / 2 ^ 11) + v.toNat % 2 ^ 11 := (Nat.two_pow_add_eq_or_of_lt hlow _).symm
    _ = v.toNat := Nat.div_add_mod ..

/-! ### The obligations -/

/-- Settles O33: after LHI the register holds the high part, ORI reads it there and adds the low part
(`opH21_shiftLeft_or_opL11`), and each of the two leaves the other registers alone. -/
theorem movaBuildsTheValue : Obligations.MovaBuildsTheValue := by
  unfold Obligations.MovaBuildsTheValue
  intro s ra v hra
  refine ⟨.lhi ra (opH21 v), .ori ra ra (opL11 v), rfl, ?_⟩
  obtain ⟨t, hlhi, ht⟩ := lhi_completes ra (opH21 v) s
  obtain ⟨htra, htpc, htother⟩ := reads_of_onlyReg hra ht
  obtain ⟨u, hori, hu⟩ := ori_completes ra ra (opL11 v) t
  obtain ⟨hura, hupc, huother⟩ := reads_of_onlyReg hra hu
  refine ⟨t, hlhi, u, hori, ?_, ?_, fun r hr => (huother r hr).trans (htother r hr)⟩
  · rw [hura, htra, opH21_shiftLeft_or_opL11]
  · rw [hupc, htpc, BitVec.add_assoc]
    rfl

/-- Settles O32: `lhi_completes`, the value as a number. -/
theorem lhiResult : Obligations.LhiResult := by
  unfold Obligations.LhiResult
  intro s ra u21
  have hvalue : BitVec.ofNat 32 (u21.toNat * 2 ^ 11) = zext u21 <<< 11 := by
    rw [← zext_shiftLeft_toNat, BitVec.ofNat_toNat, BitVec.setWidth_eq]
  rw [hvalue]
  exact lhi_completes ra u21 s

end Sys2Proof.ImmediateLoadProofs
end


section
/-! The branches (42_branch.md): every branch ends in `branchIf`, so that one lemma says where a branch goes, given what its
test decides; the rest says what each test decides, about registers and about immediates. -/

namespace Sys2Proof.BranchProofs

open Sys2Proof Sys2Proof.Machine

/-! ### Immediates as numbers -/

/-- A sign-extended immediate is the same signed number. -/
theorem sext_toInt {n : Nat} (hn : n ≤ 32) (v : BitVec n) : (sext v).toInt = v.toInt :=
  BitVec.toInt_signExtend_of_le hn

/-- A zero-extended immediate is the same unsigned number. -/
theorem zext_toNat {n : Nat} (hn : n ≤ 32) (v : BitVec n) : (zext v).toNat = v.toNat :=
  BitVec.toNat_setWidth_of_le hn

/-- Equality with a sign-extended immediate, between signed numbers. -/
theorem eq_sext_iff {n : Nat} (hn : n ≤ 32) (x : Word) (v : BitVec n) : x = sext v ↔ x.toInt = v.toInt := by
  rw [← sext_toInt hn, BitVec.toInt_inj]

/-- Equality with a zero-extended immediate, between unsigned numbers. -/
theorem eq_zext_iff {n : Nat} (hn : n ≤ 32) (x : Word) (v : BitVec n) : x = zext v ↔ x.toNat = v.toNat := by
  rw [← zext_toNat hn, BitVec.toNat_inj]

/-! ### What the relations decide (R141 to R146) -/

@[simp] theorem relEq_iff (x y : Word) : relEq x y = true ↔ x = y := decide_eq_true_iff

@[simp] theorem relNe_iff (x y : Word) : relNe x y = true ↔ x ≠ y := decide_eq_true_iff

@[simp] theorem relLt_iff (x y : Word) : relLt x y = true ↔ x.toInt < y.toInt := decide_eq_true_iff

@[simp] theorem relGe_iff (x y : Word) : relGe x y = true ↔ x.toInt ≥ y.toInt := decide_eq_true_iff

@[simp] theorem relLtu_iff (x y : Word) : relLtu x y = true ↔ x.toNat < y.toNat := decide_eq_true_iff

@[simp] theorem relGeu_iff (x y : Word) : relGeu x y = true ↔ x.toNat ≥ y.toNat := decide_eq_true_iff

/-! ### Where a branch goes (R140, R147) -/

/-- The target of a relative jump or branch as a signed sum: shifting the sign-extended offset by 2 places multiplies it by
4, modulo 2^32. -/
theorem relativeTarget_eq_ofInt {n : Nat} (hn : n ≤ 32) (s : State) (imm : BitVec n) :
    relativeTarget s imm = BitVec.ofInt 32 (s.pc.toInt + 4 + 4 * imm.toInt) := by
  have hshift : sext imm <<< 2 = BitVec.ofInt 32 4 * sext imm := by
    have hfour : BitVec.twoPow 32 2 = BitVec.ofInt 32 4 := by decide
    rw [BitVec.shiftLeft_eq_mul_twoPow, hfour, BitVec.mul_comm]
  have hfour : 4#32 = BitVec.ofInt 32 4 := by decide
  calc relativeTarget s imm
      = BitVec.ofInt 32 s.pc.toInt + BitVec.ofInt 32 4 + BitVec.ofInt 32 4 * BitVec.ofInt 32 (sext imm).toInt := by
        rw [BitVec.ofInt_toInt, BitVec.ofInt_toInt, ← hshift, relativeTarget, following, hfour]
    _ = BitVec.ofInt 32 (s.pc.toInt + 4 + 4 * imm.toInt) := by
        rw [sext_toInt hn, BitVec.ofInt_add, BitVec.ofInt_add, BitVec.ofInt_mul]

/-- A branch whose test decides `taken` goes where `branchTo` says, and changes `pc` alone. -/
theorem branchIf_completes_branchTo {b : Bool} {taken : Prop} [Decidable taken] (htest : b = true ↔ taken)
    (s10 : BitVec 10) (s : State) : Completes (branchIf b s10 s) (OnlyPc s (branchTo s s10 taken)) := by
  have hpc : (if b then relativeTarget s s10 else following s) = branchTo s s10 taken := by
    rw [relativeTarget_eq_ofInt (by decide), branchTo]
    exact if_congr htest rfl rfl
  rw [← hpc]
  exact branchIf_completes b s10 s

/-! ### The obligations -/

/-- Settles O35: each branch is `branchIf` of one relation between the two registers. -/
theorem registerBranches : Obligations.RegisterBranches := by
  unfold Obligations.RegisterBranches
  intro s rb ra s10
  refine ⟨?beq, ?bne, ?blt, ?bge, ?bltu, ?bgeu⟩
  case beq => exact branchIf_completes_branchTo (relEq_iff ..) s10 s
  case bne => exact branchIf_completes_branchTo (relNe_iff ..) s10 s
  case blt => exact branchIf_completes_branchTo (relLt_iff ..) s10 s
  case bge => exact branchIf_completes_branchTo (relGe_iff ..) s10 s
  case bltu => exact branchIf_completes_branchTo (relLtu_iff ..) s10 s
  case bgeu => exact branchIf_completes_branchTo (relGeu_iff ..) s10 s

/-- Settles O36: each branch is `branchIf` of one relation between the register and the extended immediate, which is the
immediate's own number: signed where S5 is sign-extended, unsigned where U5 is zero-extended. -/
theorem immediateBranches : Obligations.ImmediateBranches := by
  unfold Obligations.ImmediateBranches
  intro s rb i5 s10
  have heqs := eq_sext_iff (by decide) (s.reg rb) i5
  have hequ := eq_zext_iff (by decide) (s.reg rb) i5
  have hsigned := sext_toInt (by decide) i5
  have hunsigned := zext_toNat (by decide) i5
  refine ⟨?beqi, ?bnei, ?bequi, ?bneui, ?blti, ?bgei, ?bltui, ?bgeui⟩
  case beqi => exact branchIf_completes_branchTo ((relEq_iff ..).trans heqs) s10 s
  case bnei => exact branchIf_completes_branchTo ((relNe_iff ..).trans heqs.not) s10 s
  case bequi => exact branchIf_completes_branchTo ((relEq_iff ..).trans hequ) s10 s
  case bneui => exact branchIf_completes_branchTo ((relNe_iff ..).trans hequ.not) s10 s
  case blti => exact branchIf_completes_branchTo (hsigned ▸ relLt_iff ..) s10 s
  case bgei => exact branchIf_completes_branchTo (hsigned ▸ relGe_iff ..) s10 s
  case bltui => exact branchIf_completes_branchTo (hunsigned ▸ relLtu_iff ..) s10 s
  case bgeui => exact branchIf_completes_branchTo (hunsigned ▸ relGeu_iff ..) s10 s

end Sys2Proof.BranchProofs
end


section
/-! PROOFS. The arithmetic instructions (43_arithmetic.md): sums and differences of registers as signed numbers, the two
halves of the unsigned product, and the stop of MUL. -/

namespace Sys2Proof.ArithmeticProofs

open Sys2Proof Sys2Proof.Machine

/-! ### Sums and differences as signed numbers (R160) -/

/-- Addition of words is addition of their signed numbers, modulo 2^32. -/
theorem add_eq_ofInt (x y : Word) : x + y = BitVec.ofInt 32 (x.toInt + y.toInt) := by
  rw [BitVec.ofInt_add, BitVec.ofInt_toInt, BitVec.ofInt_toInt]

/-- Subtraction of words is subtraction of their signed numbers, modulo 2^32. -/
theorem sub_eq_ofInt (x y : Word) : x - y = BitVec.ofInt 32 (x.toInt - y.toInt) := by
  rw [Int.sub_eq_add_neg, BitVec.ofInt_add, BitVec.ofInt_neg, BitVec.ofInt_toInt, BitVec.ofInt_toInt,
    BitVec.sub_eq_add_neg]

/-! ### The halves of the product (R164) -/

/-- The 64-bit product is exact: two numbers below 2^32 have a product below 2^64. -/
theorem productUnsigned_toNat (x y : Word) : (productUnsigned x y).toNat = x.toNat * y.toNat := by
  have hlt : x.toNat * y.toNat < 2 ^ 64 := calc
    x.toNat * y.toNat < 2 ^ 32 * 2 ^ 32 := Nat.mul_lt_mul'' x.isLt y.isLt
    _ = 2 ^ 64 := (Nat.pow_add 2 32 32).symm
  rw [productUnsigned, BitVec.toNat_mul, BitVec.toNat_setWidth_of_le (by decide),
    BitVec.toNat_setWidth_of_le (by decide), Nat.mod_eq_of_lt hlt]

/-- The low half is the product modulo 2^32. -/
theorem productUnsigned_low (x y : Word) :
    (productUnsigned x y).extractLsb' 0 32 = BitVec.ofNat 32 (x.toNat * y.toNat) := by
  rw [BitVec.extractLsb', productUnsigned_toNat, Nat.shiftRight_zero]

/-- The high half is the product divided by 2^32. -/
theorem productUnsigned_high (x y : Word) :
    (productUnsigned x y).extractLsb' 32 32 = BitVec.ofNat 32 (x.toNat * y.toNat / 2 ^ 32) := by
  rw [BitVec.extractLsb', productUnsigned_toNat, Nat.shiftRight_eq_div_pow]

/-! ### MULU -/

/-- What two register writes and an advance leave: the second write wins, a write of R0 is discarded, and only the two
registers and `pc` change. -/
theorem two_writes_advance {s t : State} {q r : RegNo} {u v : Word}
    (ht : t = ((s.writeReg q u).writeReg r v).advance) :
    t.pc = s.pc + 4#32 ∧
    (∀ x, t.reg x = if x = r ∧ r ≠ 0#5 then v else if x = q ∧ q ≠ 0#5 then u else s.reg x) ∧
    keepsControl s t ∧ keepsMemory s t ∧ sendsNothing s t ∧ keepsRest s t := by
  subst ht
  refine ⟨by simp, fun x => ?_, by simp [keepsControl], ⟨fun _ => by simp, by simp⟩, by simp [sendsNothing],
    by simp [keepsRest]⟩
  rw [reg_congr (advance_regs _), reg_writeReg, reg_writeReg]

/-- MULU with destinations that do not clash: the high half is written first, then the low half. -/
theorem exec_mulu_of_distinct {rh ra : RegNo} (h : rh ≠ ra ∨ ra = 0#5) (rb rc : RegNo) (s : State) :
    exec (.mulu rh ra rb rc) s =
      .next ((s.writeReg rh (BitVec.ofNat 32 ((s.reg rb).toNat * (s.reg rc).toNat / 2 ^ 32))).writeReg ra
        (BitVec.ofNat 32 ((s.reg rb).toNat * (s.reg rc).toNat))).advance := by
  have hclash : ¬(rh = ra ∧ ra ≠ 0#5) := fun ⟨heq, hne⟩ => h.elim (· heq) hne
  rw [← productUnsigned_low, ← productUnsigned_high]
  exact if_neg hclash

/-- MULU with one register, not R0, for both halves is refused (D25). -/
theorem exec_mulu_of_clash {ra : RegNo} (h : ra ≠ 0#5) (rb rc : RegNo) (s : State) :
    exec (.mulu ra ra rb rc) s = .refused .mulDestinationsCoincide :=
  if_pos ⟨rfl, h⟩

/-! ### The obligations -/

/-- Settles O38: which of the two outcomes MULU has is decided by its destinations (`exec_mulu_of_distinct`,
`exec_mulu_of_clash`); what its two writes leave is `two_writes_advance`. -/
theorem muluResult : Obligations.MuluResult := by
  unfold Obligations.MuluResult
  refine ⟨fun s rh ra rb rc hdistinct => ?_, fun s ra rb rc hra => exec_mulu_of_clash hra rb rc s⟩
  exact ⟨_, exec_mulu_of_distinct hdistinct rb rc s, two_writes_advance rfl⟩

/-- Settles O37: each of the three ends in `writeAndAdvance`, of a sum or difference of words that is one of signed
numbers; ADDI's sign-extended immediate is the same signed number. -/
theorem sumResults : Obligations.SumResults := by
  unfold Obligations.SumResults
  refine ⟨fun s ra rb rc => ⟨?add, ?sub⟩, fun s ra rb s10 => ?addi⟩
  case add =>
    rw [← add_eq_ofInt]
    exact writeAndAdvance_completes ra _ s
  case sub =>
    rw [← sub_eq_ofInt]
    exact writeAndAdvance_completes ra _ s
  case addi =>
    rw [← BranchProofs.sext_toInt (by decide) s10, ← add_eq_ofInt]
    exact writeAndAdvance_completes ra _ s

/-- Settles O39: MUL's meaning is the stop, whatever the operands, and its word decodes to MUL itself
(`EncodingProofs.decode_encode`), so not as reserved. -/
theorem mulStops : Obligations.MulStops := by
  unfold Obligations.MulStops
  refine fun s rh ra rb rc => ⟨rfl, fun hreserved => ?_⟩
  cases (EncodingProofs.decode_encode (.mul rh ra rb rc)).symm.trans hreserved

end Sys2Proof.ArithmeticProofs
end


section
/-! PROOFS. The bitwise instructions (45_bitwise.md): the bits of a sign-extended immediate, and the result of each of the
seven instructions bit by bit. -/

namespace Sys2Proof.BitwiseProofs

open Sys2Proof Sys2Proof.Machine

/-! ### The bits of the second operand -/

/-- Bit `k` of a sign-extended field (R12): the field's own bit, and its top bit from there on. -/
theorem sext_getLsbD {n k : Nat} (hk : k < 32) (v : BitVec n) : (sext v).getLsbD k = v.getLsbD (min k (n - 1)) := by
  rw [sext, BitVec.getLsbD_signExtend, decide_eq_true hk, Bool.true_and]
  by_cases hfield : k < n
  · rw [if_pos hfield, min_eq_left (Nat.le_sub_one_of_lt hfield)]
  · rw [if_neg hfield, BitVec.msb_eq_getLsbD_last, min_eq_right ((Nat.sub_le n 1).trans (Nat.le_of_not_lt hfield))]

/-- Bit `k` of the complement of a word, the second operand of ANDN (R184). -/
theorem not_getLsbD {k : Nat} (hk : k < 32) (x : Word) : (~~~x).getLsbD k = !x.getLsbD k := by
  rw [BitVec.getLsbD_not, decide_eq_true hk, Bool.true_and]

/-! ### The obligation -/

/-- Settles O41: each of the seven ends in `writeAndAdvance` of one bitwise operation, so only the bits of the second operand
are left to find: `not_getLsbD` for ANDN, `sext_getLsbD` for the immediate forms. -/
theorem bitwiseResults : Obligations.BitwiseResults := by
  unfold Obligations.BitwiseResults
  refine ⟨fun s ra rb rc => ⟨?and, ?or, ?xor, ?andn⟩, fun s ra rb s16 => ⟨?andi, ?ori, ?xori⟩⟩
  case and => exact ⟨_, writeAndAdvance_completes ra _ s, fun _ _ => BitVec.getLsbD_and⟩
  case or => exact ⟨_, writeAndAdvance_completes ra _ s, fun _ _ => BitVec.getLsbD_or⟩
  case xor => exact ⟨_, writeAndAdvance_completes ra _ s, fun _ _ => BitVec.getLsbD_xor⟩
  case andn =>
    refine ⟨_, writeAndAdvance_completes ra _ s, fun k hk => ?_⟩
    rw [BitVec.getLsbD_and, not_getLsbD hk]
  case andi =>
    refine ⟨_, writeAndAdvance_completes ra _ s, fun k hk => ?_⟩
    rw [BitVec.getLsbD_and, sext_getLsbD hk]
  case ori =>
    refine ⟨_, ImmediateLoadProofs.ori_completes ra rb s16 s, fun k hk => ?_⟩
    rw [BitVec.getLsbD_or, sext_getLsbD hk]
  case xori =>
    refine ⟨_, writeAndAdvance_completes ra _ s, fun k hk => ?_⟩
    rw [BitVec.getLsbD_xor, sext_getLsbD hk]

end Sys2Proof.BitwiseProofs
end


section
/-! PROOFS. The shifts (46_shift.md): the amount a register gives, and the three kinds of shift as products and quotients by
powers of two. -/

namespace Sys2Proof.ShiftProofs

open Sys2Proof Sys2Proof.Machine

/-! ### The amount (R190) -/

/-- The low 5 bits of a register are its value modulo 32. -/
theorem shiftAmount_eq_mod (v : Word) : shiftAmount v = v.toNat % 32 := by
  rw [shiftAmount, BitVec.extractLsb'_toNat, Nat.shiftRight_zero]

/-! ### The three kinds of shift, by any amount -/

/-- A left shift multiplies, modulo 2^32. -/
theorem shiftLeft_eq_ofNat_mul (x : Word) (n : Nat) : x <<< n = BitVec.ofNat 32 (x.toNat * 2 ^ n) := by
  apply BitVec.eq_of_toNat_eq
  rw [BitVec.toNat_shiftLeft, BitVec.toNat_ofNat, Nat.shiftLeft_eq]

/-- A logical right shift divides the unsigned value. -/
theorem ushiftRight_eq_ofNat_div (x : Word) (n : Nat) : x >>> n = BitVec.ofNat 32 (x.toNat / 2 ^ n) := by
  have hlt : x.toNat / 2 ^ n < 2 ^ 32 := (Nat.div_le_self _ _).trans_lt x.isLt
  apply BitVec.eq_of_toNat_eq
  rw [BitVec.toNat_ushiftRight, BitVec.toNat_ofNat, Nat.shiftRight_eq_div_pow, Nat.mod_eq_of_lt hlt]

/-- An arithmetic right shift divides the signed value, rounding down: `/` of integers is the floor, as 2^n is positive. -/
theorem sshiftRight_eq_ofInt_div (x : Word) (n : Nat) : x.sshiftRight n = BitVec.ofInt 32 (x.toInt / 2 ^ n) := by
  rw [BitVec.sshiftRight, Int.shiftRight_eq_div_pow, Int.natCast_pow, Int.cast_ofNat_Int]

/-! ### The obligation -/

/-- Settles O42: each of the six ends in `writeAndAdvance` of one kind of shift; the forms with a register differ from the
immediate ones only in the amount (`shiftAmount_eq_mod`). -/
theorem shiftResults : Obligations.ShiftResults := by
  unfold Obligations.ShiftResults
  refine ⟨fun s ra rb rc => ?register, fun s ra rb u5 => ?immediate⟩
  case register =>
    rw [← shiftAmount_eq_mod, ← shiftLeft_eq_ofNat_mul, ← ushiftRight_eq_ofNat_div, ← sshiftRight_eq_ofInt_div]
    exact ⟨writeAndAdvance_completes ra _ s, writeAndAdvance_completes ra _ s, writeAndAdvance_completes ra _ s⟩
  case immediate =>
    rw [← shiftLeft_eq_ofNat_mul, ← ushiftRight_eq_ofNat_div, ← sshiftRight_eq_ofInt_div]
    exact ⟨writeAndAdvance_completes ra _ s, writeAndAdvance_completes ra _ s, writeAndAdvance_completes ra _ s⟩

end Sys2Proof.ShiftProofs
end


section
/-! PROOFS. The loads and stores (47_load_store.md): their effective addresses as numbers, and what a load or store of each
width completes with when its access passes its checks; the addressing forms of one width differ only in the address. -/

namespace Sys2Proof.LoadStoreProofs

open Sys2Proof Sys2Proof.Machine

/-! ### Effective addresses (R200) -/

/-- Shifting left by `k` places multiplies the signed number by 2^k, modulo 2^32. -/
theorem shiftLeft_eq_ofInt_mul (x : Word) (k : Nat) : x <<< k = BitVec.ofInt 32 (x.toInt * 2 ^ k) := by
  have hunsigned : BitVec.ofInt 32 x.toNat = BitVec.ofInt 32 x.toInt := by
    rw [BitVec.ofInt_natCast, BitVec.ofNat_toNat, BitVec.setWidth_eq, BitVec.ofInt_toInt]
  calc x <<< k
      = BitVec.ofInt 32 (x.toNat * 2 ^ k : Nat) := by
        rw [ShiftProofs.shiftLeft_eq_ofNat_mul, BitVec.ofInt_natCast]
    _ = BitVec.ofInt 32 (x.toInt * 2 ^ k) := by
        rw [Int.natCast_mul, Int.natCast_pow, Int.cast_ofNat_Int, BitVec.ofInt_mul, hunsigned, BitVec.ofInt_mul]

/-- The R+R address is the sum of the two registers, modulo 2^32 (20_memory.md R74). -/
theorem eaReg_toNat (s : State) (rb rc : RegNo) :
    (eaReg s rb rc).toNat = ((s.reg rb).toNat + (s.reg rc).toNat) % 2 ^ 32 :=
  BitVec.toNat_add ..

/-- The scaled-index address is the base plus the index times 2^k, modulo 2^32. -/
theorem eaScaled_toNat (s : State) (rb rc : RegNo) (k : Nat) :
    (eaScaled s rb rc k).toNat = ((s.reg rb).toNat + (s.reg rc).toNat * 2 ^ k) % 2 ^ 32 := by
  rw [eaScaled, BitVec.toNat_add, BitVec.toNat_shiftLeft, Nat.shiftLeft_eq, Nat.add_mod_mod]

/-- The R+Imm address is the base plus the signed immediate times 2^k, modulo 2^32. -/
theorem eaImm_eq_ofInt (s : State) (rb : RegNo) (s10 : BitVec 10) (k : Nat) :
    eaImm s rb s10 k = BitVec.ofInt 32 ((s.reg rb).toInt + s10.toInt * 2 ^ k) := by
  rw [eaImm, shiftLeft_eq_ofInt_mul, BranchProofs.sext_toInt (by decide), BitVec.ofInt_add, BitVec.ofInt_toInt]

/-! ### The value of a load (20_memory.md R72) -/

/-- Narrowing to the width of the access and sign-extending gives back the signed number of what was read. -/
theorem sext_setWidth_setWidth {n : Nat} (hn : n ≤ 32) (v : BitVec n) :
    sext ((v.setWidth 32).setWidth n) = BitVec.ofInt 32 v.toInt := by
  rw [BitVec.setWidth_setWidth_of_le _ hn, BitVec.setWidth_eq, sext, BitVec.signExtend]

section AtAnAddress

variable {s : State} {a : Word} {ra : RegNo}

/-- The two byte loads at an address: the signed and the unsigned number of the byte. -/
theorem byteLoads_complete (h : checkAccess s ⟨a, .byte, [.read]⟩ = .ok) :
    Completes (loadInto ra .signed ⟨a, .byte, [.read]⟩ s) (OnlyReg s ra (BitVec.ofInt 32 (s.byteAt a).toInt)) ∧
    Completes (loadInto ra .unsigned ⟨a, .byte, [.read]⟩ s) (OnlyReg s ra (BitVec.ofNat 32 (s.byteAt a).toNat)) := by
  rw [← sext_setWidth_setWidth (by decide) (s.byteAt a), BitVec.ofNat_toNat]
  exact ⟨loadInto_completes h, loadInto_completes h⟩

/-- The two halfword loads at an address: the signed and the unsigned number of the halfword. -/
theorem halfLoads_complete (h : checkAccess s ⟨a, .half, [.read]⟩ = .ok) :
    Completes (loadInto ra .signed ⟨a, .half, [.read]⟩ s) (OnlyReg s ra (BitVec.ofInt 32 (s.halfAt a).toInt)) ∧
    Completes (loadInto ra .unsigned ⟨a, .half, [.read]⟩ s) (OnlyReg s ra (BitVec.ofNat 32 (s.halfAt a).toNat)) := by
  rw [← sext_setWidth_setWidth (by decide) (s.halfAt a), BitVec.ofNat_toNat]
  exact ⟨loadInto_completes h, loadInto_completes h⟩

/-- The word load at an address: the word itself, which needs no extension. -/
theorem wordLoad_completes (h : checkAccess s ⟨a, .word, [.read]⟩ = .ok) :
    Completes (loadInto ra .unsigned ⟨a, .word, [.read]⟩ s) (OnlyReg s ra (s.wordAt a)) :=
  loadInto_completes h

/-! ### What a store leaves at its address (20_memory.md R63) -/

/-- A byte store: its byte of memory holds the low 8 bits of the register. -/
theorem byteStore_completes (h : checkAccess s ⟨a, .byte, [.write]⟩ = .ok) :
    Completes (storeFrom ra ⟨a, .byte, [.write]⟩ s) fun t => OnlyStore s ⟨a, .byte, [.write]⟩ t ∧
      t.mem.read (s.physical .write a).toNat = (s.reg ra).extractLsb' 0 8 := by
  obtain ⟨t, hnext, honly, hmem⟩ := storeFrom_completes (ra := ra) h
  refine ⟨t, hnext, honly, ?_⟩
  rw [hmem, Memory.store, read_write_same, BitVec.setWidth_eq_extractLsb' (by decide)]

/-- A halfword store: its halfword of memory, in the machine's byte order, holds the low 16 bits of the register. -/
theorem halfStore_completes (h : checkAccess s ⟨a, .half, [.write]⟩ = .ok) :
    Completes (storeFrom ra ⟨a, .half, [.write]⟩ s) fun t => OnlyStore s ⟨a, .half, [.write]⟩ t ∧
      t.mem.read16 s.cfg.endian (s.physical .write a).toNat = (s.reg ra).extractLsb' 0 16 := by
  obtain ⟨t, hnext, honly, hmem⟩ := storeFrom_completes (ra := ra) h
  refine ⟨t, hnext, honly, ?_⟩
  rw [hmem, Memory.store, read16_write16, BitVec.setWidth_eq_extractLsb' (by decide)]

/-- A word store: its word of memory, in the machine's byte order, holds the register. -/
theorem wordStore_completes (h : checkAccess s ⟨a, .word, [.write]⟩ = .ok) :
    Completes (storeFrom ra ⟨a, .word, [.write]⟩ s) fun t => OnlyStore s ⟨a, .word, [.write]⟩ t ∧
      t.mem.read32 s.cfg.endian (s.physical .write a).toNat = s.reg ra := by
  obtain ⟨t, hnext, honly, hmem⟩ := storeFrom_completes (ra := ra) h
  refine ⟨t, hnext, honly, ?_⟩
  rw [hmem, Memory.store, read32_write32]

end AtAnAddress

/-! ### The obligations -/

/-- Settles O28: one lemma per kind of address, and `translate_identity`. -/
theorem effectiveAddresses : Obligations.EffectiveAddresses := by
  unfold Obligations.EffectiveAddresses
  refine ⟨fun s rb rc s10 k => ?addresses, fun s kind a hnone => ?translation⟩
  case addresses => exact ⟨eaReg_toNat s rb rc, eaScaled_toNat s rb rc k, eaImm_eq_ofInt s rb s10 k⟩
  case translation => exact translate_identity hnone a kind s.sr.sm

/-- Settles O43: each is a load of its width at the R+R or the scaled-index address. -/
theorem registerLoads : Obligations.RegisterLoads := by
  unfold Obligations.RegisterLoads
  refine ⟨fun s ra rb rc => ⟨?lr8, ?lr16, ?lr32⟩, fun s ra rb rc => ⟨?lx16, ?lx32⟩⟩
  case lr8 => exact byteLoads_complete
  case lr16 => exact halfLoads_complete
  case lr32 => exact wordLoad_completes
  case lx16 => exact halfLoads_complete
  case lx32 => exact wordLoad_completes

/-- Settles O44: each is a load of its width at the R+Imm address. -/
theorem immediateLoads : Obligations.ImmediateLoads := by
  unfold Obligations.ImmediateLoads
  refine fun s ra rb s10 => ⟨?ld8, ?ld16, ?ld32⟩
  case ld8 => exact byteLoads_complete
  case ld16 => exact halfLoads_complete
  case ld32 => exact wordLoad_completes

/-- Settles O45: each is a store of its width at the R+R or the scaled-index address. -/
theorem registerStores : Obligations.RegisterStores := by
  unfold Obligations.RegisterStores
  refine fun s ra rb rc => ⟨?sr8, ?sr16, ?sr32, ?sx16, ?sx32⟩
  case sr8 => exact byteStore_completes
  case sr16 => exact halfStore_completes
  case sr32 => exact wordStore_completes
  case sx16 => exact halfStore_completes
  case sx32 => exact wordStore_completes

/-- Settles O46: each is a store of its width at the R+Imm address. -/
theorem immediateStores : Obligations.ImmediateStores := by
  unfold Obligations.ImmediateStores
  refine fun s ra rb s10 => ⟨?sd8, ?sd16, ?sd32⟩
  case sd8 => exact byteStore_completes
  case sd16 => exact halfStore_completes
  case sd32 => exact wordStore_completes

end Sys2Proof.LoadStoreProofs
end


section
/-! PROOFS. The miscellaneous instructions (48_misc.md): the conditional moves, the count of sign bits, the byte reversal, and
the exchange of a register with a word of memory. -/

namespace Sys2Proof.MiscProofs

open Sys2Proof Sys2Proof.Machine

/-! ### Conditional moves (R231, R232) -/

/-- An instruction whose only effect is to go on at the following one completes. -/
theorem advance_completes (s : State) : Completes (.next s.advance) (OnlyPc s (s.pc + 4#32)) :=
  ⟨_, rfl, rfl, fun _ => rfl, ⟨rfl, rfl, rfl, rfl, rfl⟩, ⟨fun _ => rfl, rfl⟩, rfl, ⟨rfl, rfl, rfl, rfl⟩⟩

/-- A conditional move whose condition holds writes its register. -/
theorem moveIf_moves {c : Prop} [Decidable c] (hc : c) (ra : RegNo) (v : Word) (s : State) :
    Completes (.next (if c then s.writeReg ra v else s).advance) (OnlyReg s ra v) := by
  rw [if_pos hc]
  exact writeAndAdvance_completes ra v s

/-- A conditional move whose condition fails only advances. -/
theorem moveIf_keeps {c : Prop} [Decidable c] (hc : ¬c) (ra : RegNo) (v : Word) (s : State) :
    Completes (.next (if c then s.writeReg ra v else s).advance) (OnlyPc s (s.pc + 4#32)) := by
  rw [if_neg hc]
  exact advance_completes s

/-- Settles O47: MVZ and MVNZ are moves on opposite conditions. -/
theorem conditionalMoves : Obligations.ConditionalMoves := by
  unfold Obligations.ConditionalMoves
  refine fun s ra rb rc => ⟨fun hzero => ⟨?mvzMoves, ?mvnzKeeps⟩, fun hnonzero => ⟨?mvnzMoves, ?mvzKeeps⟩⟩
  case mvzMoves => exact moveIf_moves hzero ra _ s
  case mvnzKeeps => exact moveIf_keeps (not_not_intro hzero) ra _ s
  case mvnzMoves => exact moveIf_moves hnonzero ra _ s
  case mvzKeeps => exact moveIf_keeps hnonzero ra _ s

/-! ### The count of equal bits (R233) -/

/-- The run that the loop counts below bit `i` has at most `i` bits, all of its bits equal `sign`, and a shorter run ends at
a bit that does not. -/
theorem countEqualBits_run (v : Word) (sign : Bool) (i : Nat) :
    countEqualBits v sign i ≤ i ∧ (∀ k, i - countEqualBits v sign i ≤ k → k < i → v.getLsbD k = sign) ∧
      (countEqualBits v sign i < i → v.getLsbD (i - 1 - countEqualBits v sign i) ≠ sign) := by
  induction i with
  | zero => exact ⟨Nat.le_refl 0, fun k _ hk => absurd hk (Nat.not_lt_zero k), fun h => absurd h (Nat.lt_irrefl 0)⟩
  | succ i ih =>
    obtain ⟨hle, hrun, hend⟩ := ih
    by_cases hbit : v.getLsbD i = sign
    · have hcount : countEqualBits v sign (i + 1) = countEqualBits v sign i + 1 := if_pos hbit
      rw [hcount]
      refine ⟨by omega, fun k hlow hk => ?_, fun hlt => ?_⟩
      · by_cases htop : k = i
        · rw [htop, hbit]
        · exact hrun k (by omega) (by omega)
      · rw [show i + 1 - 1 - (countEqualBits v sign i + 1) = i - 1 - countEqualBits v sign i by omega]
        exact hend (by omega)
    · have hcount : countEqualBits v sign (i + 1) = 0 := if_neg hbit
      rw [hcount]
      exact ⟨Nat.zero_le _, fun k hlow hk => absurd hk (by omega), fun _ => hbit⟩

/-- Settles O48: the count is that of `countEqualBits` from bit 30 down, whose run `countEqualBits_run` describes; bit 31
itself is the sign. -/
theorem csbResult : Obligations.CsbResult := by
  unfold Obligations.CsbResult
  intro s ra rb
  obtain ⟨hle, hrun, hend⟩ := countEqualBits_run (s.reg rb) (s.reg rb).msb 31
  have hsign : (s.reg rb).msb = (s.reg rb).getLsbD 31 := BitVec.msb_eq_getLsbD_last _
  rw [← hsign]
  refine ⟨signBits (s.reg rb), hle, writeAndAdvance_completes ra _ s, fun k hlow hk => ?_, hend⟩
  by_cases htop : k = 31
  · rw [htop, hsign]
  · exact hrun k hlow (by omega)

/-! ### The byte reversal (R234) -/

/-- Byte `k` of the reversed word is byte `3 - k` of the word. -/
theorem byteReverse_byte (v : Word) {k : Nat} (hk : k < 4) :
    (byteReverse v).extractLsb' (8 * k) 8 = v.extractLsb' (8 * (3 - k)) 8 := by
  have hcases : k = 0 ∨ k = 1 ∨ k = 2 ∨ k = 3 := by omega
  unfold byteReverse
  rcases hcases with rfl | rfl | rfl | rfl
  · exact append_low _ _
  · exact (append_high _ _ 0 8).trans (append_low _ _)
  · exact (append_high _ _ 8 8).trans ((append_high _ _ 0 8).trans (append_low _ _))
  · exact (append_high _ _ 16 8).trans ((append_high _ _ 8 8).trans ((append_high _ _ 0 8).trans (extract_all _)))

/-- Reversing the bytes twice restores the word. -/
theorem byteReverse_byteReverse (v : Word) : byteReverse (byteReverse v) = v := by
  have hbyte0 := byteReverse_byte v (k := 0) (by decide)
  have hbyte1 := byteReverse_byte v (k := 1) (by decide)
  have hbyte2 := byteReverse_byte v (k := 2) (by decide)
  have hbyte3 := byteReverse_byte v (k := 3) (by decide)
  rw [byteReverse, hbyte0, hbyte1, hbyte2, hbyte3]
  exact bytes_of_word v

/-- Settles O49: `byteReverse_byte` and `byteReverse_byteReverse`. -/
theorem brevResult : Obligations.BrevResult := by
  unfold Obligations.BrevResult
  exact fun s ra rb => ⟨byteReverse (s.reg rb), writeAndAdvance_completes ra _ s, fun k hk => byteReverse_byte _ hk,
    byteReverse_byteReverse _⟩

/-! ### SWAP (R235) -/

/-- SWAP past its checks: the old register is stored, then the old word written to the register. -/
theorem exec_swap_of_ok {ra rb : RegNo} {s10 : BitVec 10} {s : State} {d : DataAccess}
    (hd : dataAccess (.swap ra rb s10) s = some d) (h : checkAccess s d = .ok) :
    exec (.swap ra rb s10) s = .next ((s.storeAt d (s.reg ra)).writeReg ra (s.loaded d)).advance := by
  cases hd
  show withAccess _ s _ = _
  rw [withAccess, h]
  rfl

/-- Settles O50: `storeAt_outside` is the frame of the store, `read32_write32` its value, and the register write changes
neither. -/
theorem swapResult : Obligations.SwapResult := by
  unfold Obligations.SwapResult
  intro s ra rb s10 h
  refine ⟨_, exec_swap_of_ok rfl h, by simp, fun r => ?register, ?word, ?outside, by simp [keepsControl],
    by simp [sendsNothing], by simp [keepsRest]⟩
  case register =>
    rw [reg_congr (advance_regs _), reg_writeReg, reg_congr (storeAt_regs ..)]
    rfl
  case word =>
    rw [advance_mem, writeReg_mem]
    exact read32_write32 ..
  case outside =>
    have hstore := storeAt_outside s ⟨eaImm s rb s10 2, .word, [.read, .write]⟩ (s.reg ra)
    simpa [keepsMemoryOutside] using hstore

end Sys2Proof.MiscProofs
end


section
/-! PROOFS. Exceptions (60_exceptions.md): where the vector table lies, what each entry does, which exceptions an instruction
raises of its own, and what user mode can do to the control registers. -/

namespace Sys2Proof.ExceptionProofs

open Sys2Proof Sys2Proof.Machine

/-! ### The vector table (R287, R288) -/

/-- The vector table base as a number: the table of VB = 0 is at 0x80000000, and the tables lie 2^26 bytes apart. -/
theorem vectorBase_toNat (c : Config) (r : StatusReg) :
    (vectorBase c r).toNat = if c.debugHostMode then 0xEC000000 else 0x80000000 + r.vb.toNat * 0x04000000 := by
  unfold vectorBase
  split
  · rfl
  · rw [append_toNat, append_toNat, BitVec.toNat_ofNat, BitVec.toNat_ofNat]
    omega

/-- Taking an exception whose vector word cannot be read stops (R300, D14). -/
theorem takeException_unreadable {e : Exception} {p : Word} {s : State} (h : ¬vectorReadable s e.offset) :
    takeException e p s = .fault .vectorUnreadable := by
  have hfault : accessFault s.cfg (vectorBase s.cfg s.sr + e.offset) 4 .read true = true := by
    simpa [vectorReadable] using h
  rw [takeException, jumpThroughVector, MemoryProofs.saveAndEnter_cfg, if_pos hfault]

/-- Settles O30: one entry lemma for the five non-debug exceptions and one for the three debug exceptions, at the offset of
each; the stop is `takeException_unreadable`, the base `vectorBase_toNat`. -/
theorem exceptionEntry : Obligations.ExceptionEntry := by
  unfold Obligations.ExceptionEntry
  refine ⟨fun s p => ⟨?illins, ?int, ?trap, ?fault, ?debug, fun e => takeException_unreadable⟩, vectorBase_toNat⟩
  case illins => exact takeException_nonDebug (e := .illins) rfl
  case int => exact takeException_nonDebug (e := .int) rfl
  case trap => exact takeException_nonDebug (e := .trap) rfl
  case fault =>
    exact fun h => ⟨takeException_nonDebug (e := .dfault) rfl h, takeException_nonDebug (e := .ifault) rfl h⟩
  case debug => exact fun h => ⟨takeException_debug rfl h, takeException_debug rfl h, takeException_debug rfl h⟩

/-- ILLINS enters through offset 0x04. -/
theorem illins_enters {p : Word} {s : State} (h : vectorReadable s 0x04#32) :
    Completes (takeException .illins p s) (EntersNonDebug s 0x04#32 p) :=
  takeException_nonDebug (e := .illins) rfl h

/-! ### The modes (R302, R303) -/

/-- Every exception entry sets SM. -/
theorem takeException_sm {e : Exception} {p : Word} {s t : State} (h : takeException e p s = .next t) :
    t.sr.sm = true := by
  obtain ⟨rfl, -⟩ := takeException_next h
  cases e <;> rfl

/-- A privileged meaning in user mode enters ILLINS with its own address saved. -/
theorem privileged_user_enters {s : State} {o : Result} (hs : s.sr.sm = false) (h : vectorReadable s 0x04#32) :
    Completes (privileged s o) (EntersNonDebug s 0x04#32 s.pc) := by
  rw [privileged_user hs]
  exact illins_enters h

/-- Settles O31: each of the six meanings is `privileged` of something. -/
theorem privilegedInUserMode : Obligations.PrivilegedInUserMode := by
  unfold Obligations.PrivilegedInUserMode
  refine fun s hs h => ⟨fun ra cr => ?rcr, fun ra cr => ?wcr, ?rte, ?sleep, fun cmd rb => ?itlb, fun cmd rb => ?dtlb⟩
  case rcr => exact privileged_user_enters hs h
  case wcr => exact privileged_user_enters hs h
  case rte => exact privileged_user_enters hs h
  case sleep => exact privileged_user_enters hs h
  case itlb => exact privileged_user_enters hs h
  case dtlb => exact privileged_user_enters hs h

/-- Settles O22: of what `exec_did` allows, WCR and RTE change control registers only in supervisor mode. -/
theorem userModeKeepsControl : Obligations.UserModeKeepsControl := by
  unfold Obligations.UserModeKeepsControl
  intro i s t huser h
  rcases exec_did h with ⟨e, p, u, ⟨hcontrol, -⟩, hu⟩ | ⟨-, -, -, -, -, hcontrol, -⟩
  · exact .inr ⟨e, p, u, hcontrol, hu⟩
  · rcases hcontrol with hcontrol | ⟨hsuper, -⟩
    · exact .inl hcontrol
    · rw [huser] at hsuper; cases hsuper

/-! ### The exception an instruction raises of its own (R295 steps 5 to 7) -/

/-- An always privileged instruction in user mode takes ILLINS. -/
theorem exec_alwaysPrivileged {i : Instr} {s : State} (hi : alwaysPrivileged i = true) (hs : s.sr.sm = false) :
    exec i s = takeException .illins s.pc s := by
  cases i
  case rcr | wcr | rte | sleep | itlb | dtlb => exact privileged_user hs
  all_goals cases hi

/-- A unit command that the platform calls illegal takes ILLINS. -/
theorem commandUnit_illins {unit : CoreUnit} {cmd : BitVec 4} {addr : Word} {s : State}
    (h : unitOp s.cfg unit cmd addr s.sr.sm = some .illins) :
    commandUnit unit cmd addr s = takeException .illins s.pc s := by
  rw [commandUnit, h]

/-- A privileged unit command that the platform calls illegal takes ILLINS in either mode. -/
theorem privileged_commandUnit_illins {unit : CoreUnit} {cmd : BitVec 4} {addr : Word} {s : State}
    (h : unitOp s.cfg unit cmd addr s.sr.sm = some .illins) :
    privileged s (commandUnit unit cmd addr s) = takeException .illins s.pc s := by
  rw [commandUnit_illins h, privileged, ite_self]

/-- CLD of a module register that the platform calls illegal takes ILLINS. -/
theorem execCld_illins {ra : RegNo} {id : BitVec 3} {s10 : BitVec 10} {s : State} (hnum : s10.msb = false)
    (h : moduleRead s.cfg id (s10.setWidth 9) s.sr.sm = some .illins) :
    execCld ra id s10 s = takeException .illins s.pc s := by
  simp only [execCld, hnum, h, Bool.false_eq_true, if_false]

/-- CST to a module register that the platform calls illegal takes ILLINS. -/
theorem execCst_illins {ra : RegNo} {id : BitVec 3} {s10 : BitVec 10} {s : State} (hnum : s10.msb = false)
    (h : moduleWrite s.cfg id (s10.setWidth 9) (s.reg ra) s.sr.sm = some .illins) :
    execCst ra id s10 s = takeException .illins s.pc s := by
  simp only [execCst, hnum, h, Bool.false_eq_true, if_false]

/-- An instruction to which the platform answers ILLINS takes it. -/
theorem exec_platformIllegal {i : Instr} {s : State} (h : platformIllegal i s = true) :
    exec i s = takeException .illins s.pc s := by
  cases i
  case cld ra id s10 =>
    obtain ⟨hnum, hread⟩ := Bool.and_eq_true_iff.mp h
    exact execCld_illins (by simpa using hnum) (of_decide_eq_true hread)
  case cst ra id s10 =>
    obtain ⟨hnum, hwrite⟩ := Bool.and_eq_true_iff.mp h
    exact execCst_illins (by simpa using hnum) (of_decide_eq_true hwrite)
  case itlb | dtlb => exact privileged_commandUnit_illins (of_decide_eq_true h)
  case icache | dcache => exact commandUnit_illins (of_decide_eq_true h)
  all_goals cases h

/-- An instruction whose access is a DFAULT takes it. -/
theorem exec_dfault {i : Instr} {s : State} {d : DataAccess} (hd : dataAccess i s = some d)
    (h : checkAccess s d = .dfault) : exec i s = takeException .dfault s.pc s := by
  obtain ⟨t, hexec, -⟩ := MemoryProofs.exec_checks hd
  rw [hexec, withAccess, h]

/-- What the test of R295 asks of an instruction that is neither SBRK nor TRAP. -/
theorem ownException_eq {i : Instr} (s : State) (hsbrk : i ≠ .sbrk) (htrap : ∀ ra s10, i ≠ .trap ra s10) :
    ownException i s = if alwaysPrivileged i && !s.sr.sm then some .illins
      else if platformIllegal i s then some .illins
      else (dataAccess i s).bind fun d => if checkAccess s d = .dfault then some .dfault else none := by
  unfold ownException
  rw [if_neg hsbrk]
  cases i
  case trap ra s10 => exact absurd rfl (htrap ra s10)
  all_goals rfl

/-- Where that test names an exception, the instruction takes it with its own address saved. -/
theorem exec_of_ownException {i : Instr} {s : State} {e : Exception} (hsbrk : i ≠ .sbrk)
    (htrap : ∀ ra s10, i ≠ .trap ra s10) (h : ownException i s = some e) : exec i s = takeException e s.pc s := by
  rw [ownException_eq s hsbrk htrap] at h
  split at h
  · next hpriv =>
    obtain ⟨hi, hs⟩ := Bool.and_eq_true_iff.mp hpriv
    cases h
    exact exec_alwaysPrivileged hi (by simpa using hs)
  split at h
  · next hill => cases h; exact exec_platformIllegal hill
  obtain ⟨d, hd, he⟩ := Option.bind_eq_some_iff.mp h
  split at he
  · next hfault => cases he; exact exec_dfault hd hfault
  · cases he

/-- Settles O10: SBRK and TRAP take their exception by definition, the others by `exec_of_ownException`. -/
theorem ownExceptionIsTaken : Obligations.OwnExceptionIsTaken := by
  unfold Obligations.OwnExceptionIsTaken
  intro i s e h
  have other := fun hsbrk htrap => exec_of_ownException (i := i) hsbrk htrap h
  cases i
  case trap | sbrk => rfl
  all_goals exact other Instr.noConfusion fun _ _ => Instr.noConfusion

end Sys2Proof.ExceptionProofs
end


section
/-! PROOFS. The system control instructions (49_system.md): module registers, control registers, TRAP, RTE, SLEEP and the
commands to the TLBs and caches. -/

namespace Sys2Proof.SystemProofs

open Sys2Proof Sys2Proof.Machine

/-! ### Module registers (R241, R242, D19) -/

/-- A register number with bit 9 set is refused by CLD. -/
theorem execCld_out_of_range {s10 : BitVec 10} (h : s10.msb = true) (ra : RegNo) (id : BitVec 3) (s : State) :
    execCld ra id s10 s = .refused .moduleRegisterNumber :=
  if_pos h

/-- A register number with bit 9 set is refused by CST. -/
theorem execCst_out_of_range {s10 : BitVec 10} (h : s10.msb = true) (ra : RegNo) (id : BitVec 3) (s : State) :
    execCst ra id s10 s = .refused .moduleRegisterNumber :=
  if_pos h

/-- Settles O51: the range check, then one case for each answer of the platform; a value that nothing is known of is a free
value, of which one more is then used. -/
theorem cldResult : Obligations.CldResult := by
  unfold Obligations.CldResult
  refine fun s ra id s10 => ⟨fun hnum => execCld_out_of_range hnum ra id s, fun hnum => ⟨fun v hread => ?holds,
    fun hread => ?varies, fun hread hv => ?illins, fun hread => ?unknown⟩⟩
  case holds =>
    have hexec : execCld ra id s10 s = writeAndAdvance ra v (s.send (.read id (s10.setWidth 9))) := by
      simp only [execCld, hnum, hread, Bool.false_eq_true, if_false]
    obtain ⟨t, hnext, hpc, hregs, hcontrol, hmem, hsent, hrest⟩ :=
      writeAndAdvance_completes ra v (s.send (.read id (s10.setWidth 9)))
    exact ⟨t, hexec.trans hnext, hpc, hregs, hcontrol, hmem, hsent, hrest⟩
  case varies =>
    have hexec : execCld ra id s10 s = writeAndAdvance ra (Config.freeWord s.freeNext)
        ((s.send (.read id (s10.setWidth 9))).withFreeNext (s.freeNext + 1)) := by
      simp only [execCld, hnum, hread, Bool.false_eq_true, if_false]
    obtain ⟨t, hnext, hpc, hregs, hcontrol, hmem, hsent, hpower, hinputs, -, hcfg⟩ :=
      writeAndAdvance_completes ra (Config.freeWord s.freeNext)
        ((s.send (.read id (s10.setWidth 9))).withFreeNext (s.freeNext + 1))
    exact ⟨t, hexec.trans hnext, hpc, ⟨_, hregs⟩, hcontrol, hmem, hsent, hpower, hinputs, hcfg⟩
  case illins =>
    have hexec : exec (.cld ra id s10) s = takeException .illins s.pc s :=
      ExceptionProofs.execCld_illins hnum hread
    exact hexec ▸ ExceptionProofs.illins_enters hv
  case unknown =>
    show execCld ra id s10 s = _
    simp only [execCld, hnum, hread, Bool.false_eq_true, if_false]

/-- Settles O52: the range check, then one case for each answer of the platform. -/
theorem cstResult : Obligations.CstResult := by
  unfold Obligations.CstResult
  refine fun s ra id s10 => ⟨fun hnum => execCst_out_of_range hnum ra id s, fun hnum => ⟨fun hwrite => ?accepted,
    fun hwrite hv => ?illins, fun hwrite => ?unknown⟩⟩
  case accepted =>
    have hexec : execCst ra id s10 s = .next (s.send (.write id (s10.setWidth 9) (s.reg ra))).advance := by
      simp only [execCst, hnum, hwrite, Bool.false_eq_true, if_false]
    obtain ⟨t, hnext, hsends⟩ := MiscProofs.advance_completes (s.send (.write id (s10.setWidth 9) (s.reg ra)))
    exact ⟨t, hexec.trans hnext, hsends⟩
  case illins =>
    have hexec : exec (.cst ra id s10) s = takeException .illins s.pc s :=
      ExceptionProofs.execCst_illins hnum hwrite
    exact hexec ▸ ExceptionProofs.illins_enters hv
  case unknown =>
    show execCst ra id s10 s = _
    simp only [execCst, hnum, hwrite, Bool.false_eq_true, if_false]

/-! ### Control registers (R243, R244) -/

/-- An index other than the five of R31 names no control register. -/
theorem controlRegOf_eq_none {cr : BitVec 5} (h : cr ∉ [0#5, 1#5, 2#5, 5#5, 6#5]) : controlRegOf cr = none := by
  simp only [List.mem_cons, List.not_mem_nil, or_false, not_or] at h
  obtain ⟨h0, h1, h2, h5, h6⟩ := h
  rw [controlRegOf, if_neg h0, if_neg h1, if_neg h2, if_neg h5, if_neg h6]

/-- RCR of an index that names a register writes what that register reads as. -/
theorem rcr_completes {s : State} (hs : s.sr.sm = true) {cr : BitVec 5} {c : ControlReg}
    (hc : controlRegOf cr = some c) (ra : RegNo) : Completes (exec (.rcr ra cr) s) (OnlyReg s ra (s.control c)) := by
  show Completes (execRcr ra cr s) _
  rw [execRcr, privileged_supervisor hs, hc]
  exact writeAndAdvance_completes ra _ s

/-- WCR of an index that names a register writes that register and advances. -/
theorem exec_wcr {s : State} (hs : s.sr.sm = true) {cr : BitVec 5} {c : ControlReg} (hc : controlRegOf cr = some c)
    (ra : RegNo) : exec (.wcr ra cr) s = .next (s.writeControl c (s.reg ra)).advance := by
  show execWcr ra cr s = _
  rw [execWcr, privileged_supervisor hs, hc]

/-- A control register written and an advance change no more than the control registers and `pc`. -/
theorem writeControl_onlyControl (s : State) (c : ControlReg) (v : Word) :
    OnlyControl s (s.writeControl c v).sr (s.writeControl c v).esr (s.writeControl c v).epc (s.writeControl c v).dsr
      (s.writeControl c v).dpc (s.writeControl c v).advance := by
  cases c <;>
    exact ⟨rfl, rfl, rfl, rfl, rfl, rfl, fun _ => rfl, ⟨fun _ => rfl, rfl⟩, rfl, ⟨rfl, rfl, rfl, rfl⟩⟩

/-- RCR of an index that names no register is refused (D18). -/
theorem exec_rcr_refused {s : State} (hs : s.sr.sm = true) {cr : BitVec 5}
    (h : cr ∉ [0#5, 1#5, 2#5, 5#5, 6#5]) (ra : RegNo) : exec (.rcr ra cr) s = .refused .controlRegisterIndex := by
  show execRcr ra cr s = _
  rw [execRcr, privileged_supervisor hs, controlRegOf_eq_none h]

/-- WCR of an index that names no register is refused (D18). -/
theorem exec_wcr_refused {s : State} (hs : s.sr.sm = true) {cr : BitVec 5}
    (h : cr ∉ [0#5, 1#5, 2#5, 5#5, 6#5]) (ra : RegNo) : exec (.wcr ra cr) s = .refused .controlRegisterIndex := by
  show execWcr ra cr s = _
  rw [execWcr, privileged_supervisor hs, controlRegOf_eq_none h]

/-- Settles O54: `rcr_completes` at each of the five indices. -/
theorem rcrResult : Obligations.RcrResult := by
  unfold Obligations.RcrResult
  refine fun s ra hs => ⟨?sr, ?esr, ?epc, ?dsr, ?dpc, fun cr h => exec_rcr_refused hs h ra⟩
  case sr => exact rcr_completes hs (c := .sr) rfl ra
  case esr => exact rcr_completes hs (c := .esr) rfl ra
  case epc => exact rcr_completes hs (c := .epc) rfl ra
  case dsr => exact rcr_completes hs (c := .dsr) rfl ra
  case dpc => exact rcr_completes hs (c := .dpc) rfl ra

/-- Settles O55: `writeControl_onlyControl` at each of the five indices. -/
theorem wcrResult : Obligations.WcrResult := by
  unfold Obligations.WcrResult
  refine fun s ra hs => ⟨?sr, ?esr, ?epc, ?dsr, ?dpc, fun cr h => exec_wcr_refused hs h ra⟩
  case sr => exact ⟨_, exec_wcr hs (c := .sr) rfl ra, writeControl_onlyControl s .sr (s.reg ra)⟩
  case esr => exact ⟨_, exec_wcr hs (c := .esr) rfl ra, writeControl_onlyControl s .esr (s.reg ra)⟩
  case epc => exact ⟨_, exec_wcr hs (c := .epc) rfl ra, writeControl_onlyControl s .epc (s.reg ra)⟩
  case dsr => exact ⟨_, exec_wcr hs (c := .dsr) rfl ra, writeControl_onlyControl s .dsr (s.reg ra)⟩
  case dpc => exact ⟨_, exec_wcr hs (c := .dpc) rfl ra, writeControl_onlyControl s .dpc (s.reg ra)⟩

/-! ### TRAP, RTE and SLEEP (R245, R247, R248) -/

/-- Settles O56: TRAP is an entry from the state with its register written, which differs from the state of before in that
register alone. -/
theorem trapResult : Obligations.TrapResult := by
  unfold Obligations.TrapResult
  intro s ra s10 hv
  have hvector : vectorReadable (s.writeReg ra (sext s10)) 0x14#32 := by simpa [vectorReadable] using hv
  have henters : Completes (exec (.trap ra s10) s) (EntersNonDebug (s.writeReg ra (sext s10)) 0x14#32 (following s)) :=
    takeException_nonDebug (e := .trap) rfl hvector
  obtain ⟨t, hnext, hesr, hepc, hsr, hdsr, hdpc, hpc, hregs, ⟨hmem, hstored⟩, hsent, hrest⟩ := henters
  refine ⟨t, hnext, fun r => (hregs r).trans (reg_writeReg ..), ?esr, hepc, ?sr, ?dsr, ?dpc, ?pc, ⟨fun a => ?mem, ?stored⟩,
    ?sent, ?rest⟩
  case esr => simpa using hesr
  case sr => simpa using hsr
  case dsr => simpa using hdsr
  case dpc => simpa using hdpc
  case pc => simpa [vectorWord] using hpc
  case mem => simpa using hmem a
  case stored => simpa using hstored
  case sent => simpa [sendsNothing] using hsent
  case rest => simpa [keepsRest] using hrest

/-- The pair that RTE returns through: DSR and DPC with SR.DS = 1, else ESR and EPC. -/
def returnPair (s : State) : Word × Word := if s.sr.ds then (s.dsr, s.dpc) else (s.esr, s.epc)

/-- RTE in supervisor mode loads SR and `pc` from its pair. -/
theorem exec_rte {s : State} (hs : s.sr.sm = true) :
    exec .rte s = .next ((s.withSr (.ofWord (returnPair s).1)).withPc (returnPair s).2) := by
  show execRte s = _
  rw [execRte, privileged_supervisor hs, returnFromException, returnPair]
  split <;> rfl

/-- Settles O57: `exec_rte`, with the pair that DS selects. -/
theorem rteResult : Obligations.RteResult := by
  unfold Obligations.RteResult
  intro s hs
  refine ⟨(returnPair s).1, (returnPair s).2, fun hds => ?debug, fun hds => ?nonDebug, _, exec_rte hs, rfl, rfl, rfl, rfl,
    rfl, rfl, fun _ => rfl, ⟨fun _ => rfl, rfl⟩, rfl, ⟨rfl, rfl, rfl, rfl⟩⟩
  case debug => rw [returnPair, hds]; exact ⟨rfl, rfl⟩
  case nonDebug => rw [returnPair, hds]; exact ⟨rfl, rfl⟩

/-- SLEEP in sleep or standby mode advances and leaves the CPU waiting. -/
theorem exec_sleep_waits {s : State} (hs : s.sr.sm = true) (hmode : s.cfg.sleepMode ≠ .pause) :
    exec .sleep s = .next (s.advance.withPower (if s.cfg.sleepMode = .sleep then .sleep else .standby)) := by
  show execSleep s = _
  rw [execSleep, privileged_supervisor hs]
  cases h : s.cfg.sleepMode with
  | sleep => rfl
  | standby => rfl
  | pause => exact absurd h hmode

/-- SLEEP in pause mode goes on where the implementation supports it, and is refused where not (U8). -/
theorem exec_sleep_pause {s : State} (hs : s.sr.sm = true) (hmode : s.cfg.sleepMode = .pause) :
    exec .sleep s = if s.cfg.pauseSupported then .next s.advance else .refused .pauseUnsupported := by
  show execSleep s = _
  rw [execSleep, privileged_supervisor hs, hmode]

/-- Settles O58: `exec_sleep_pause` and `exec_sleep_waits`. -/
theorem sleepResult : Obligations.SleepResult := by
  unfold Obligations.SleepResult
  refine fun s hs => ⟨fun hmode hsup => ?supported, fun hmode hsup => ?unsupported, fun hmode => ?waits⟩
  case supported =>
    rw [exec_sleep_pause hs hmode, if_pos hsup]
    exact MiscProofs.advance_completes s
  case unsupported => rw [exec_sleep_pause hs hmode, hsup, if_neg Bool.false_ne_true]
  case waits =>
    exact ⟨_, exec_sleep_waits hs hmode, rfl, rfl, fun _ => rfl, ⟨rfl, rfl, rfl, rfl, rfl⟩, ⟨fun _ => rfl, rfl⟩, rfl,
      rfl, rfl, rfl⟩

/-! ### Commands to the TLBs and caches (R249 to R252, D20) -/

section ByTheAnswer

variable {unit : CoreUnit} {cmd : BitVec 4} {addr : Word} {s : State}

/-- A command that the unit takes is sent; one that publishes also ends the record of stored bytes. -/
theorem commandUnit_done {publishes : Bool} (h : unitOp s.cfg unit cmd addr s.sr.sm = some (.done publishes)) :
    Completes (commandUnit unit cmd addr s) (OnlyCommands s (.op unit cmd addr) publishes) := by
  rw [commandUnit, h]
  cases publishes <;>
    exact ⟨_, rfl, rfl, fun _ => rfl, ⟨rfl, rfl, rfl, rfl, rfl⟩, fun _ => rfl, rfl, rfl, ⟨rfl, rfl, rfl, rfl⟩⟩

/-- A command to which the platform answers ILLINS enters it with the instruction's own address saved. -/
theorem commandUnit_enters (h : unitOp s.cfg unit cmd addr s.sr.sm = some .illins)
    (hv : vectorReadable s 0x04#32) : Completes (commandUnit unit cmd addr s) (EntersNonDebug s 0x04#32 s.pc) := by
  rw [ExceptionProofs.commandUnit_illins h]
  exact ExceptionProofs.illins_enters hv

/-- A command without an answer is refused. -/
theorem commandUnit_unknown (h : unitOp s.cfg unit cmd addr s.sr.sm = none) :
    commandUnit unit cmd addr s = .refused .unitCommandUnknown := by
  rw [commandUnit, h]

end ByTheAnswer

/-- ITLB in supervisor mode is a command with the address in Rb. -/
theorem exec_itlb {s : State} (hs : s.sr.sm = true) (cmd : BitVec 4) (rb : RegNo) :
    exec (.itlb cmd rb) s = commandUnit .itlb cmd (s.reg rb) s :=
  privileged_supervisor hs

/-- DTLB in supervisor mode is a command with the address in Rb. -/
theorem exec_dtlb {s : State} (hs : s.sr.sm = true) (cmd : BitVec 4) (rb : RegNo) :
    exec (.dtlb cmd rb) s = commandUnit .dtlb cmd (s.reg rb) s :=
  privileged_supervisor hs

/-- Settles O59: both are `commandUnit`, decided by the platform's answer. -/
theorem tlbCommands : Obligations.TlbCommands := by
  unfold Obligations.TlbCommands
  intro s cmd rb hs
  rw [exec_itlb hs, exec_dtlb hs, ← hs]
  exact ⟨fun _ => commandUnit_done, fun _ => commandUnit_done, commandUnit_enters, commandUnit_enters,
    commandUnit_unknown, commandUnit_unknown⟩

/-- Settles O60: both are `commandUnit` of the scaled address, in either mode. -/
theorem cacheCommands : Obligations.CacheCommands := by
  unfold Obligations.CacheCommands
  intro s cmd rb s10
  exact ⟨fun _ => commandUnit_done, fun _ => commandUnit_done, commandUnit_enters, commandUnit_enters,
    commandUnit_unknown, commandUnit_unknown⟩

end Sys2Proof.SystemProofs
end


section
/-! PROOFS. The step (70_reset_and_hazards.md R345, 60_exceptions.md R295): which instruction a step runs, which exception,
interrupt or debug event it takes instead, the wait after SLEEP, and how the mode changes. -/

namespace Sys2Proof.StepProofs

open Sys2Proof Sys2Proof.Machine

/-! ### Up to the decoded instruction -/

/-- The events of the step before its fetch are absent: no reset, and no instruction break that is accepted. -/
def FetchUndisturbed (s : State) : Prop :=
  (currentInput s).dboot = false ∧ (currentInput s).manualReset = false ∧
    (s.sr.de = true → (currentInput s).instrBreak = false)

theorem fetchUndisturbed_of_undisturbed {s : State} (h : undisturbed s) : FetchUndisturbed s := by
  obtain ⟨hboot, hreset, hdebug, -⟩ := h
  exact ⟨hboot, hreset, fun hde => (hdebug hde).1⟩

/-- The two checks of `runAtPc` before its fetch let an aligned `pc` without an accepted break pass. -/
theorem checks_before_fetch_pass {s : State} (hal : s.pcAligned = true) (h : FetchUndisturbed s) :
    ¬pcMisaligned (consumeInput s) = true ∧ ¬((currentInput s).instrBreak && (consumeInput s).sr.de) = true := by
  obtain ⟨-, -, hbreak⟩ := h
  refine ⟨by simpa [State.pcAligned] using (show (consumeInput s).pcAligned = true from hal), ?_⟩
  rw [Bool.and_eq_true]
  rintro ⟨hib, hde⟩
  rw [hbreak hde] at hib
  cases hib

/-- A step whose fetch the platform refuses is IFAULT, if nothing comes before the fetch. -/
theorem step_of_refused_fetch {s : State} (hp : s.power = .running) (hal : s.pcAligned = true)
    (h : FetchUndisturbed s) (hacc : accessFault s.cfg s.pc 4 .fetch s.sr.sm = true) :
    step s = takeException .ifault s.pc (consumeInput s) := by
  obtain ⟨hmis, hnobreak⟩ := checks_before_fetch_pass hal h
  obtain ⟨hboot, hreset, -⟩ := h
  have hfetch : fetch (consumeInput s) = .ifault := if_pos hacc
  rw [MemoryProofs.step_running hp hboot hreset, runAtPc, if_neg hmis, if_neg hnobreak, hfetch]
  rfl

/-- A step that fetches the word of an instruction runs that instruction, if nothing comes before the fetch. -/
theorem step_of_decode {s : State} {w : Word} {i : Instr} (hf : fetches s w) (hi : decode w = .ok i)
    (h : FetchUndisturbed s) : step s = runDecoded i (currentInput s) (consumeInput s) := by
  obtain ⟨hp, hal, hfetch⟩ := hf
  obtain ⟨hmis, hnobreak⟩ := checks_before_fetch_pass hal h
  obtain ⟨hboot, hreset, -⟩ := h
  have hfetch' : fetch (consumeInput s) = .word w := hfetch
  rw [MemoryProofs.step_running hp hboot hreset, runAtPc, if_neg hmis, if_neg hnobreak, hfetch']
  show runWord w _ _ = _
  rw [runWord, hi]

/-- The test of R295 does not depend on the input records. -/
theorem ownException_consumeInput (i : Instr) (s : State) : ownException i (consumeInput s) = ownException i s := rfl

/-! ### The decoded instruction and what goes before it -/

/-- An instruction with an exception of its own takes it, whatever is pending. -/
theorem runDecoded_own {i : Instr} {inp : StepInput} {s : State} {e : Exception} (h : ownException i s = some e) :
    runDecoded i inp s = exec i s := by
  rw [runDecoded, h]

/-- Where no data break and no request is taken, the instruction runs. -/
theorem runDecoded_quiet {i : Instr} {inp : StepInput} {s : State} (hbreak : dataBreakTaken i s inp = none)
    (hasync : asyncException s inp = none) : runDecoded i inp s = exec i s := by
  rw [runDecoded, hbreak, hasync]
  cases ownException i s with
  | some e => rfl
  | none => cases exec i s <;> rfl

/-- A data break is taken before an instruction that raises nothing and would complete. -/
theorem runDecoded_dataBreak {i : Instr} {inp : StepInput} {s t : State} {d : Word} (hown : ownException i s = none)
    (hexec : exec i s = .next t) (hbreak : dataBreakTaken i s inp = some d) :
    runDecoded i inp s = takeException .dbrk d s := by
  rw [runDecoded, hown, hexec, hbreak]

/-- Without a data break an asynchronous request is taken before an instruction that raises nothing and would complete. -/
theorem runDecoded_async {i : Instr} {inp : StepInput} {s t : State} {e : Exception} (hown : ownException i s = none)
    (hexec : exec i s = .next t) (hbreak : dataBreakTaken i s inp = none) (hasync : asyncException s inp = some e) :
    runDecoded i inp s = takeException e s.pc s := by
  rw [runDecoded, hown, hexec, hbreak, hasync]

/-- No data break is taken where none is accepted. -/
theorem dataBreakTaken_none {i : Instr} {inp : StepInput} {s : State} (h : s.sr.de = true → inp.dataBreak = none) :
    dataBreakTaken i s inp = none := by
  unfold dataBreakTaken
  split
  · next hde => exact h (Bool.and_eq_true_iff.mp hde).1
  · rfl

/-- No debug interrupt is taken where none is accepted. -/
theorem asyncException_no_debug {inp : StepInput} {s : State} (h : s.sr.de = true → inp.debugInterrupt = false) :
    asyncException s inp = if inp.irq && s.sr.ie then some .int else none := by
  rw [asyncException, if_neg]
  rw [Bool.and_eq_true]
  rintro ⟨hdebug, hde⟩
  rw [h hde] at hdebug
  cases hdebug

/-- In an undisturbed step the decoded instruction runs. -/
theorem runDecoded_undisturbed {i : Instr} {s : State} (h : undisturbed s) :
    runDecoded i (currentInput s) (consumeInput s) = exec i (consumeInput s) := by
  obtain ⟨-, -, hdebug, hirq⟩ := h
  have hnoirq : ¬((currentInput s).irq && s.sr.ie) = true := by
    rw [Bool.and_eq_true]
    rintro ⟨hreq, hie⟩
    rw [hirq hie] at hreq
    cases hreq
  have hasync : asyncException (consumeInput s) (currentInput s) = none :=
    (asyncException_no_debug fun hde => (hdebug hde).2.1).trans (if_neg hnoirq)
  exact runDecoded_quiet (dataBreakTaken_none fun hde => (hdebug hde).2.2) hasync

/-! ### The word at `pc` -/

/-- Four bytes of memory decode as the word read there does (20_memory.md R64). -/
theorem decodeBytes_read (e : Endian) (m : Memory) (a : Nat) :
    decodeBytes e ((List.range 4).map fun k => m.read (a + k)) = decode (m.read32 e a) := by
  cases e <;> rfl

/-- The fetch at a `pc` that the platform allows, of bytes that count as loaded. -/
theorem fetch_word {s : State} (hacc : accessFault s.cfg s.pc 4 .fetch s.sr.sm = false)
    (hloaded : s.cfg.fetchSeesStores = true ∨ ∀ k, k < 4 → (s.physical .fetch s.pc).toNat + k ∉ s.stored) :
    fetch s = .word (s.mem.read32 s.cfg.endian (s.physical .fetch s.pc).toNat) := by
  have hstored : fetchesStoredByte s = false := by
    rcases hloaded with hsees | hloaded
    · simp [fetchesStoredByte, hsees]
    · simpa [fetchesStoredByte] using fun _ k hk => hloaded k hk
  simp [fetch, hacc, hstored]

/-- Settles O7: the fetched word decodes as its four bytes do, and in an undisturbed step nothing goes before it. -/
theorem stepRunsDecodedInstruction : Obligations.StepRunsDecodedInstruction := by
  unfold Obligations.StepRunsDecodedInstruction
  intro s i hp hpc hund hacc hloaded hbytes
  rw [decodeBytes_read] at hbytes
  have hf : fetches s _ := ⟨hp, (pcAligned_iff s).mpr hpc, fetch_word hacc hloaded⟩
  rw [step_of_decode hf hbytes (fetchUndisturbed_of_undisturbed hund), runDecoded_undisturbed hund]

/-- Settles O8: a reserved word is ILLINS in `runWord`, a refused fetch IFAULT in `step_of_refused_fetch`. -/
theorem fetchAndDecodeExceptions : Obligations.FetchAndDecodeExceptions := by
  unfold Obligations.FetchAndDecodeExceptions
  refine ⟨fun s w hund hf hw hv => ?reserved, fun s hp hal hund hacc hv => ?refused⟩
  case reserved =>
    rw [EncodingProofs.step_of_fetches hund hf, runWord, hw]
    exact takeException_nonDebug (e := .illins) rfl hv
  case refused =>
    rw [step_of_refused_fetch hp hal (fetchUndisturbed_of_undisturbed hund) hacc]
    exact takeException_nonDebug (e := .ifault) rfl hv

/-! ### The order of exceptions, debug events and interrupts -/

/-- Settles O11: `runDecoded` asks first for the instruction's own exception. -/
theorem synchronousFirst : Obligations.SynchronousFirst := by
  unfold Obligations.SynchronousFirst
  intro s w i e hf hi hown hboot hreset hbreak
  rw [step_of_decode hf hi ⟨hboot, hreset, hbreak⟩, runDecoded_own ((ownException_consumeInput i s).trans hown)]

/-- The step of a running CPU as a function of its input record. -/
theorem step_of_record {s : State} (hp : s.power = .running) (inp : StepInput) (rest : List StepInput) :
    step (s.withInputs (inp :: rest)) =
      if inp.dboot then debugBootstrap (s.withInputs rest)
      else if inp.manualReset then manualReset (s.withInputs rest)
      else runAtPc inp (s.withInputs rest) := by
  have hp' : (consumeInput (s.withInputs (inp :: rest))).power = .running := hp
  simp only [step, cycle, hp']
  rfl

/-- With SR.IE = 0 the interrupt line changes nothing in what a running CPU does. -/
theorem runAtPc_irq_masked {s : State} (hie : s.sr.ie = false) (inp : StepInput) :
    runAtPc inp s = runAtPc { inp with irq := false } s := by
  have hasync : asyncException s inp = asyncException s { inp with irq := false } := by
    simp [asyncException, hie]
  have hdecoded (i : Instr) : runDecoded i inp s = runDecoded i { inp with irq := false } s := by
    rw [runDecoded, runDecoded, hasync]
    rfl
  have hword (w : Word) : runWord w inp s = runWord w { inp with irq := false } s := by
    rw [runWord, runWord]
    simp only [hdecoded]
  rw [runAtPc, runAtPc]
  simp only [hword]

/-- Settles O12: with IE = 1 the request is what `asyncException` names, with IE = 0 the line is ignored. -/
theorem interrupts : Obligations.Interrupts := by
  unfold Obligations.Interrupts
  refine ⟨fun s w i hf hi hown ⟨t, hexec⟩ hboot hreset hdebug hirq hie hv => ?taken, fun s inp rest hp hie => ?masked⟩
  case taken =>
    have hasync : asyncException (consumeInput s) (currentInput s) = some .int :=
      (asyncException_no_debug fun hde => (hdebug hde).2.1).trans (if_pos (Bool.and_eq_true_iff.mpr ⟨hirq, hie⟩))
    rw [step_of_decode hf hi ⟨hboot, hreset, fun hde => (hdebug hde).1⟩,
      runDecoded_async (s := consumeInput s) hown hexec (dataBreakTaken_none fun hde => (hdebug hde).2.2) hasync]
    exact takeException_nonDebug (e := .int) rfl hv
  case masked =>
    have hmasked := runAtPc_irq_masked (s := s.withInputs rest) hie inp
    rw [step_of_record hp, step_of_record hp, hmasked]

/-- Settles O13: an instruction break goes before the fetch, a data break before the requests, the debug interrupt before
the interrupt. -/
theorem debugEventsAccepted : Obligations.DebugEventsAccepted := by
  unfold Obligations.DebugEventsAccepted
  refine fun s hde hp hal hv hboot hreset => ⟨fun hbreak => ?instrBreak,
    fun hbreak w i d hf hi hown ⟨t, hexec⟩ hacc hdata => ?dataBreak,
    fun hbreak w i hf hi hown ⟨t, hexec⟩ hdata hdebug => ?debugInterrupt⟩
  case instrBreak =>
    have hmis : ¬pcMisaligned (consumeInput s) = true := by
      simpa [State.pcAligned] using (show (consumeInput s).pcAligned = true from hal)
    have htaken : ((currentInput s).instrBreak && (consumeInput s).sr.de) = true :=
      Bool.and_eq_true_iff.mpr ⟨hbreak, hde⟩
    rw [MemoryProofs.step_running hp hboot hreset, runAtPc, if_neg hmis, if_pos htaken]
    exact takeException_debug rfl hv
  case dataBreak =>
    have htaken : dataBreakTaken i (consumeInput s) (currentInput s) = some d :=
      (if_pos (Bool.and_eq_true_iff.mpr ⟨hde, hacc⟩)).trans hdata
    rw [step_of_decode hf hi ⟨hboot, hreset, fun _ => hbreak⟩,
      runDecoded_dataBreak (s := consumeInput s) hown hexec htaken]
    exact takeException_debug rfl hv
  case debugInterrupt =>
    have hasync : asyncException (consumeInput s) (currentInput s) = some .ibrk :=
      if_pos (Bool.and_eq_true_iff.mpr ⟨hdebug, hde⟩)
    rw [step_of_decode hf hi ⟨hboot, hreset, fun _ => hbreak⟩,
      runDecoded_async (s := consumeInput s) hown hexec (dataBreakTaken_none fun _ => hdata) hasync]
    exact takeException_debug rfl hv

/-! ### The wait after SLEEP (R248) -/

/-- A waiting CPU with no reset requested goes on waiting for the interrupt. -/
theorem step_waiting {s : State} (hp : s.power = .sleep ∨ s.power = .standby)
    (hboot : (currentInput s).dboot = false) (hreset : (currentInput s).manualReset = false) :
    step s = waitForInterrupt (currentInput s) (consumeInput s) := by
  rcases hp with hp | hp
  · have hp' : (consumeInput s).power = .sleep := hp
    simp [step, cycle, hboot, hreset, hp']
  · have hp' : (consumeInput s).power = .standby := hp
    simp [step, cycle, hboot, hreset, hp']

/-- Settles O15: the three outcomes of `waitForInterrupt`, none of which asks for a debug event. -/
theorem sleepingWaits : Obligations.SleepingWaits := by
  unfold Obligations.SleepingWaits
  intro s hp hboot hreset
  rw [step_waiting hp hboot hreset]
  refine ⟨fun hirq => ?waits, fun hirq hie hv => ?wakes, fun hirq hie => ?stops⟩
  case waits => rw [waitForInterrupt, hirq, if_neg Bool.false_ne_true]
  case wakes =>
    have hie' : (consumeInput s).sr.ie = true := hie
    rw [waitForInterrupt, if_pos hirq, if_pos hie']
    exact takeException_nonDebug (e := .int) rfl hv
  case stops =>
    have hie' : (consumeInput s).sr.ie = false := hie
    rw [waitForInterrupt, if_pos hirq, hie', if_neg Bool.false_ne_true]

/-! ### The mode (60_exceptions.md R304) -/

/-- A manual reset leaves the machine in supervisor mode. -/
theorem manualReset_sm {s t : State} (h : manualReset s = .next t) : t.sr.sm = true := by
  obtain ⟨rfl, -⟩ := jumpThroughVector_next h
  simp [StatusReg.reset]

/-- A debug bootstrap leaves the machine in supervisor mode. -/
theorem debugBootstrap_sm {s t : State} (h : debugBootstrap s = .next t) : t.sr.sm = true := by
  obtain ⟨rfl, -⟩ := jumpThroughVector_next h
  simp

/-- An instruction that enters supervisor mode takes an exception, from the state with at most registers written. -/
theorem exec_enters_supervisor {i : Instr} {s t : State} (h : exec i s = .next t) (hs : s.sr.sm = false)
    (ht : t.sr.sm = true) : ∃ e p u, Untouched i s u ∧ takeException e p u = .next t := by
  rcases exec_did h with hentry | ⟨-, -, -, -, -, hcontrol, -⟩
  · exact hentry
  · rcases hcontrol with ⟨hsr, -⟩ | ⟨hsuper, -⟩
    · rw [hsr, hs] at ht; cases ht
    · rw [hs] at hsuper; cases hsuper

/-- An instruction that leaves supervisor mode is RTE. -/
theorem exec_leaves_supervisor {i : Instr} {s t : State} (h : exec i s = .next t) (hs : s.sr.sm = true)
    (ht : t.sr.sm = false) : i = .rte := by
  rcases exec_did h with ⟨e, p, u, -, hu⟩ | ⟨-, -, -, -, -, hcontrol, -⟩
  · rw [ExceptionProofs.takeException_sm hu] at ht; cases ht
  · rcases hcontrol with ⟨hsr, -⟩ | ⟨-, ⟨-, hkept⟩ | hrte⟩
    · rw [hsr, hs] at ht; cases ht
    · rw [hkept] at ht; cases ht
    · exact hrte

/-- Settles O21: of the cases of `step_did` only an entry, a reset or an instruction can change SM, and of the instructions
only one that takes an exception sets it and only RTE clears it. -/
theorem modeTransitions : Obligations.ModeTransitions := by
  unfold Obligations.ModeTransitions
  refine ⟨fun s t h hs ht => ?enters, fun s t h hs ht => ?leaves, fun e p s t h => ExceptionProofs.takeException_sm h,
    fun ra cr s t hs h => ?wcr, rfl⟩
  case enters =>
    rcases step_did h with h | h | rfl | ⟨e, p, u, ⟨hsr, -⟩, hmem, -, hcfg, -, -, hu⟩ | ⟨w, i, -, -, h⟩
    · exact ⟨consumeInput s, rfl, rfl, rfl, .inr (.inr h)⟩
    · exact ⟨consumeInput s, rfl, rfl, rfl, .inr (.inl h)⟩
    · exact absurd (hs.symm.trans ht) Bool.false_ne_true
    · exact ⟨u, hsr, hmem, hcfg, .inl ⟨e, p, hu⟩⟩
    · obtain ⟨e, p, u, ⟨⟨hsr, -⟩, hmem, -, hcfg, -⟩, hu⟩ := exec_enters_supervisor h hs ht
      exact ⟨u, hsr, hmem, hcfg, .inl ⟨e, p, hu⟩⟩
  case leaves =>
    have hno {o : Prop} (hsm : t.sr.sm = true) : o := absurd (ht.symm.trans hsm) Bool.false_ne_true
    rcases step_did h with h | h | rfl | ⟨e, p, u, -, -, -, -, -, -, hu⟩ | ⟨w, i, hf, hi, h⟩
    · exact hno (debugBootstrap_sm h)
    · exact hno (manualReset_sm h)
    · exact hno hs
    · exact hno (ExceptionProofs.takeException_sm hu)
    · cases exec_leaves_supervisor h hs ht
      exact ⟨w, hf, hi, h⟩
  case wcr =>
    cases hsm : t.sr.sm with
    | true => rfl
    | false => cases exec_leaves_supervisor h hs hsm

end Sys2Proof.StepProofs
end


section
/-! PROOFS. Resets (70_reset_and_hazards.md), and the words printed in the instruction pages. -/

namespace Sys2Proof.ResetProofs

open Sys2Proof Sys2Proof.Machine

/-! ### Power-on (R331) -/

/-- Every general register is zero after a power-on. -/
theorem reg_of_zeroed {s : State} (h : s.regs = Vector.replicate 32 0#32) (r : RegNo) : s.reg r = 0#32 := by
  simp [State.reg, h]

/-- SR after a power-on or manual reset is 0x00000008 (10_state.md R44). -/
theorem reset_toWord : StatusReg.reset.toWord = 0x00000008#32 := by decide

/-- Settles O16: the power-on is one jump through the vector at 0x80000000, from the state of Table 2-2. -/
theorem powerOnReset : Obligations.PowerOnReset := by
  unfold Obligations.PowerOnReset
  intro c m inputs esr epc dsr dpc hacc
  exact ⟨_, jumpThroughVector_readable hacc, fun r => reg_of_zeroed rfl r, reset_toWord, rfl, rfl, rfl,
    rfl, rfl, rfl, rfl, rfl⟩

/-- Settles O19: the memory and the record of stores are empty lists, and the register file is zero. -/
theorem resetCanonical : Obligations.ResetCanonical := by
  unfold Obligations.ResetCanonical
  exact ⟨(canonical_iff State.reset).mpr ⟨rfl, rfl, rfl⟩, rfl⟩

/-! ### Resets during a run (R332, R333, D22) -/

/-- A debug bootstrap goes before all else in a step, whether the CPU runs or waits. -/
theorem step_dboot {s : State} (h : (currentInput s).dboot = true) : step s = debugBootstrap (consumeInput s) :=
  if_pos h

/-- A manual reset goes before all but a debug bootstrap, whether the CPU runs or waits. -/
theorem step_manualReset {s : State} (hboot : (currentInput s).dboot = false)
    (h : (currentInput s).manualReset = true) : step s = manualReset (consumeInput s) := by
  have hboot' : ¬(currentInput s).dboot = true := by simp [hboot]
  exact (if_neg hboot').trans (if_pos h)

/-- Settles O17: each is one jump through its vector, from the state that `manualResetState` or `debugBootstrapState`
leaves. -/
theorem otherResets : Obligations.OtherResets := by
  unfold Obligations.OtherResets
  refine ⟨fun s hboot hreset hacc => ?manual, fun s hboot hacc => ?bootstrap⟩
  case manual =>
    have hacc' : accessFault (manualResetState (consumeInput s)).cfg resetVectorBase 4 .read true = false := by
      rw [manualResetState_cfg]; exact hacc
    refine ⟨_, (step_manualReset hboot hreset).trans (jumpThroughVector_readable hacc'), ?_⟩
    simp [keepsMemory, consumeInput, resetVectorBase, reset_toWord]
  case bootstrap =>
    have hacc' : accessFault (debugBootstrapState (consumeInput s)).cfg debugVectorBase 4 .read true = false := by
      rw [debugBootstrapState_cfg]; exact hacc
    refine ⟨_, (step_dboot hboot).trans (jumpThroughVector_readable hacc'), ?_⟩
    simp [keepsMemory, consumeInput, debugVectorBase]

/-! ### The printed words (95_test_vectors.md) -/

/-- Settles O6: ten closed evaluations of the decoder. -/
theorem printedWords : Obligations.PrintedWords := by
  unfold Obligations.PrintedWords
  refine ⟨?lhi, ?j, ?beq, ?blti, ?mulu, ?and, ?sll, ?swap, ?wcr, ?trap⟩
  all_goals rfl

end Sys2Proof.ResetProofs
end


section
/-! PROOFS. The jumps (41_jump.md): the common end of J and JA, and their two targets. -/

namespace Sys2Proof.JumpProofs

open Sys2Proof Sys2Proof.Machine

/-- The common end of the jumps completes: the link into one register (nothing if it is R0), and `pc`. -/
theorem link_completes (ra : RegNo) (v p : Word) (s : State) :
    Completes (.next ((s.writeReg ra v).withPc p)) (OnlyRegAndPc s ra v p) :=
  ⟨_, rfl, rfl, fun q => (reg_congr (withPc_regs _ _) q).trans (reg_writeReg s ra v q), by simp [keepsControl],
    ⟨fun _ => by simp, by simp⟩, by simp [sendsNothing], by simp [keepsRest]⟩

/-- JA's offset is four times its unsigned immediate (R137). -/
theorem absoluteTarget_eq_or (s : State) (rb : RegNo) (u10 : BitVec 10) :
    absoluteTarget s rb u10 = s.reg rb ||| BitVec.ofNat 32 (4 * u10.toNat) := by
  have hfour : 2 ^ 2 = 4 := rfl
  rw [absoluteTarget, ShiftProofs.shiftLeft_eq_ofNat_mul, BranchProofs.zext_toNat (by decide), hfour, Nat.mul_comm]

/-- Settles O34: both jumps end in `link_completes`; JA's target is an expression over the state before the link is
written. -/
theorem jumpResults : Obligations.JumpResults := by
  unfold Obligations.JumpResults
  refine ⟨fun s ra s21 => ?j, fun s ra rb u10 => ?ja⟩
  case j =>
    rw [← BranchProofs.relativeTarget_eq_ofInt (by decide)]
    exact link_completes ra (following s) _ s
  case ja =>
    rw [← absoluteTarget_eq_or]
    exact link_completes ra (following s) _ s

end Sys2Proof.JumpProofs
end


section
/-! PROOFS. The comparisons (44_compare.md): each ends in `writeAndAdvance` of the boolean word of one relation, and what the
relations decide is said with the branches. -/

namespace Sys2Proof.CompareProofs

open Sys2Proof Sys2Proof.Machine

/-- A comparison whose test decides `holds` writes 1 where it holds and 0 elsewhere (R170). -/
theorem compare_completes {b : Bool} {holds : Prop} [Decidable holds] (htest : b = true ↔ holds) (ra : RegNo)
    (s : State) : Completes (writeAndAdvance ra (boolWord b) s) (OnlyReg s ra (if holds then 1#32 else 0#32)) := by
  have hvalue : boolWord b = if holds then 1#32 else 0#32 := if_congr htest rfl rfl
  rw [← hvalue]
  exact writeAndAdvance_completes ra _ s

/-- Settles O40: `compare_completes` at the relation of each comparison. -/
theorem compareResults : Obligations.CompareResults := by
  unfold Obligations.CompareResults
  intro s ra rb rc
  refine ⟨?seq, ?sne, ?slt, ?sge, ?sltu, ?sgeu⟩
  case seq => exact compare_completes (BranchProofs.relEq_iff ..) ra s
  case sne => exact compare_completes (BranchProofs.relNe_iff ..) ra s
  case slt => exact compare_completes (BranchProofs.relLt_iff ..) ra s
  case sge => exact compare_completes (BranchProofs.relGe_iff ..) ra s
  case sltu => exact compare_completes (BranchProofs.relLtu_iff ..) ra s
  case sgeu => exact compare_completes (BranchProofs.relGeu_iff ..) ra s

end Sys2Proof.CompareProofs
end


section
/-! PROOFS. The rules of every instruction (10_state.md R24, R29): the general registers it may write, and the alignment of
`pc`. -/

namespace Sys2Proof.FrameProofs

open Sys2Proof Sys2Proof.Machine

/-- Settles O23: of what `exec_did` allows, an effect writes destinations only, and an exception entry keeps the registers
of a state that differs in destinations only (TRAP's). -/
theorem registerFrame : Obligations.RegisterFrame := by
  unfold Obligations.RegisterFrame
  intro i s t r h hr
  rcases exec_did h with ⟨e, p, u, ⟨-, -, -, -, -, -, -, hregs⟩, hu⟩ | ⟨-, -, -, hregs, -, -, -⟩
  · obtain ⟨-, hentry⟩ := MemoryProofs.takeException_keeps hu
    exact (reg_congr hentry r).trans (hregs r hr)
  · exact hregs r hr

/-- A word shifted left by 2 places is a multiple of 4. -/
theorem shiftLeft_two_mod_four (k : Word) : (k <<< 2).toNat % 4 = 0 := by
  rw [BitVec.toNat_shiftLeft, Nat.shiftLeft_eq]
  omega

/-- The following instruction, and a target a multiple of 4 away from it, are aligned if `pc` is. -/
theorem pcAligned_of_relative {s t : State} {k : Word} (hs : s.pcAligned = true)
    (h : t.pc = s.pc + 4#32 + (k <<< 2)) : t.pcAligned = true := by
  rw [pcAligned_iff] at hs ⊢
  have hk := shiftLeft_two_mod_four k
  rw [h, BitVec.toNat_add, BitVec.toNat_add, BitVec.toNat_ofNat]
  omega

/-- Settles O25: the `pc` of an effect is relative to the one before, but for JA and RTE. -/
theorem pcAlignmentKept : Obligations.PcAlignmentKept := by
  unfold Obligations.PcAlignmentKept
  intro i s t hs h hja hrte
  rcases exec_did h with ⟨e, p, u, ⟨⟨hsr, -⟩, hmem, -⟩, hu⟩ | ⟨-, -, -, -, -, -, hpc⟩
  · exact .inr ⟨e, p, u, hsr, hmem, hu⟩
  · rcases hpc with ⟨k, hk⟩ | ⟨ra, rb, u10, hi⟩ | hi
    · exact .inl (pcAligned_of_relative hs hk)
    · exact absurd hi (hja ra rb u10)
    · exact absurd hi hrte

end Sys2Proof.FrameProofs
end


section
/-! PROOFS. The status register (10_state.md R32, R34): the bits of the word SR reads as, what WCR writes of it, and what
SR.DE decides. -/

namespace Sys2Proof.StatusRegisterProofs

open Sys2Proof Sys2Proof.Machine

/-! ### The bits of SR (R32) -/

/-- SR as a word: the single-bit fields appended below VB one after the other. -/
theorem toWord_eq_concat (r : StatusReg) :
    r.toWord = ((((0#25 ++ r.vb).concat r.sm).concat r.ds).concat r.de).concat r.ie := rfl

theorem toWord_bit0 (r : StatusReg) : r.toWord.getLsbD 0 = r.ie := by
  rw [toWord_eq_concat, BitVec.getLsbD_concat_zero]

theorem toWord_bit1 (r : StatusReg) : r.toWord.getLsbD 1 = r.de := by
  rw [toWord_eq_concat, BitVec.getLsbD_concat_succ, BitVec.getLsbD_concat_zero]

theorem toWord_bit2 (r : StatusReg) : r.toWord.getLsbD 2 = r.ds := by
  rw [toWord_eq_concat, BitVec.getLsbD_concat_succ, BitVec.getLsbD_concat_succ, BitVec.getLsbD_concat_zero]

theorem toWord_bit3 (r : StatusReg) : r.toWord.getLsbD 3 = r.sm := by
  rw [toWord_eq_concat, BitVec.getLsbD_concat_succ, BitVec.getLsbD_concat_succ, BitVec.getLsbD_concat_succ,
    BitVec.getLsbD_concat_zero]

/-- From bit 4 on SR has the bits of VB, and zeros past them. -/
theorem toWord_bit_add_four (r : StatusReg) (k : Nat) : r.toWord.getLsbD (k + 4) = r.vb.getLsbD k := by
  rw [toWord_eq_concat, BitVec.getLsbD_concat_succ, BitVec.getLsbD_concat_succ, BitVec.getLsbD_concat_succ,
    BitVec.getLsbD_concat_succ, BitVec.getLsbD_append]
  split
  · rfl
  · next hk => rw [BitVec.getLsbD_zero, BitVec.getLsbD_of_ge _ _ (Nat.le_of_not_lt hk)]

/-- Bits 31..7 read as 0. -/
theorem toWord_reserved (r : StatusReg) {k : Nat} (hk : 7 ≤ k) : r.toWord.getLsbD k = false := by
  obtain ⟨j, rfl⟩ := Nat.exists_eq_add_of_le' (show 4 ≤ k by omega)
  rw [toWord_bit_add_four]
  exact BitVec.getLsbD_of_ge _ _ (by omega)

/-- Bits 6..4 are VB. -/
theorem toWord_vb (r : StatusReg) : r.toWord.extractLsb' 4 3 = r.vb := by
  ext k hk
  rw [BitVec.getElem_extractLsb', Nat.add_comm, toWord_bit_add_four, BitVec.getLsbD_eq_getElem hk]

/-- WCR keeps bit 3 of SR and takes bits 6..4 and 2..0 from the word written (R38): the two masks are themselves words that
SR can read as, so that `toWord_bit0` and the rest give their bits too. -/
theorem writtenBy_toWord (r : StatusReg) (v : Word) :
    (r.writtenBy v).toWord = (r.toWord &&& 0x08#32) ||| (v &&& 0x77#32) := by
  have hkept : 0x08#32 = (⟨0#3, true, false, false, false⟩ : StatusReg).toWord := by decide
  have htaken : 0x77#32 = (⟨BitVec.allOnes 3, false, true, true, true⟩ : StatusReg).toWord := by decide
  rw [hkept, htaken]
  apply BitVec.eq_of_getLsbD_eq
  intro k _
  rw [BitVec.getLsbD_or, BitVec.getLsbD_and, BitVec.getLsbD_and]
  match k with
  | 0 => simp only [toWord_bit0, StatusReg.writtenBy, Bool.and_false, Bool.and_true, Bool.false_or]
  | 1 => simp only [toWord_bit1, StatusReg.writtenBy, Bool.and_false, Bool.and_true, Bool.false_or]
  | 2 => simp only [toWord_bit2, StatusReg.writtenBy, Bool.and_false, Bool.and_true, Bool.false_or]
  | 3 => simp only [toWord_bit3, StatusReg.writtenBy, Bool.and_false, Bool.and_true, Bool.or_false]
  | k + 4 =>
    simp only [toWord_bit_add_four, StatusReg.writtenBy, BitVec.getLsbD_extractLsb', BitVec.getLsbD_zero,
      BitVec.getLsbD_allOnes, Bool.and_false, Bool.false_or]
    rw [Bool.and_comm, Nat.add_comm]

/-- Settles O53: the bits one by one, RCR and WCR of index 0, and SR after a reset. -/
theorem statusRegister : Obligations.StatusRegister := by
  unfold Obligations.StatusRegister
  refine ⟨fun r => ⟨fun k hk => toWord_reserved r hk, toWord_vb r, toWord_bit3 r, toWord_bit2 r, toWord_bit1 r,
    toWord_bit0 r⟩, fun s ra hs => ⟨?rcr, ?wcr⟩, ResetProofs.reset_toWord⟩
  case rcr => exact SystemProofs.rcr_completes hs (c := .sr) rfl ra
  case wcr => exact ⟨_, SystemProofs.exec_wcr hs (c := .sr) rfl ra, writtenBy_toWord s.sr (s.reg ra)⟩

/-! ### SR.DE (R34) -/

/-- An input record without the events that SR.DE bars (D16). -/
def withoutDebugEvents (inp : StepInput) : StepInput :=
  { inp with instrBreak := false, debugInterrupt := false, dataBreak := none }

/-- With SR.DE = 0 the debug events change nothing in what the instruction at `pc` does. -/
theorem runAtPc_debug_barred {s : State} (hde : s.sr.de = false) (inp : StepInput) :
    runAtPc inp s = runAtPc (withoutDebugEvents inp) s := by
  have hbreak (i : Instr) : dataBreakTaken i s inp = dataBreakTaken i s (withoutDebugEvents inp) := by
    simp [dataBreakTaken, hde]
  have hasync : asyncException s inp = asyncException s (withoutDebugEvents inp) := by
    simp [asyncException, hde, withoutDebugEvents]
  have hdecoded (i : Instr) : runDecoded i inp s = runDecoded i (withoutDebugEvents inp) s := by
    rw [runDecoded, runDecoded, hbreak, hasync]
  have hword (w : Word) : runWord w inp s = runWord w (withoutDebugEvents inp) s := by
    rw [runWord, runWord]
    simp only [hdecoded]
  rw [runAtPc, runAtPc]
  simp only [hword, hde, Bool.and_false]

/-- A step depends on the debug events of its record only through the instruction at `pc`: resets and the wait after SLEEP
ask for none. -/
theorem step_withoutDebugEvents {s : State} {inp : StepInput} {rest : List StepInput}
    (h : runAtPc inp (s.withInputs rest) = runAtPc (withoutDebugEvents inp) (s.withInputs rest)) :
    step (s.withInputs (inp :: rest)) = step (s.withInputs (withoutDebugEvents inp :: rest)) := by
  have hcurrent (inp : StepInput) : currentInput (s.withInputs (inp :: rest)) = inp := rfl
  have hconsumed (inp : StepInput) : consumeInput (s.withInputs (inp :: rest)) = s.withInputs rest := rfl
  simp only [step, cycle, hcurrent, hconsumed, h]
  rfl

/-- SBRK with SR.DE = 1 is a debug break. -/
theorem exec_sbrk_enabled {s : State} (hde : s.sr.de = true) :
    exec .sbrk s = takeException .sbrk (s.pc + 4#32) s :=
  if_pos hde

/-- SBRK with SR.DE = 0 is an illegal instruction. -/
theorem exec_sbrk_barred {s : State} (hde : s.sr.de = false) : exec .sbrk s = takeException .illins s.pc s :=
  if_neg (by simp [hde])

/-- A debug entry clears SR.DE, a non-debug entry keeps it (R290, R291). -/
theorem takeException_de {e : Exception} {p : Word} {s t : State} (h : takeException e p s = .next t) :
    t.sr.de = if e.isDebug then false else s.sr.de := by
  obtain ⟨rfl, -⟩ := takeException_next h
  cases e <;> rfl

/-- The debug exceptions by name (R285). -/
theorem isDebug_iff (e : Exception) : e.isDebug = true ↔ e = .ibrk ∨ e = .dbrk ∨ e = .sbrk := by
  cases e <;> decide

/-- Settles O14: with DE = 0 no event of the debug module is asked for (`runAtPc_debug_barred`), the bootstrap comes before
any test of DE, SBRK's two entries are those of `takeException`, and `takeException_de` says what an entry leaves. -/
theorem debugEnable : Obligations.DebugEnable := by
  unfold Obligations.DebugEnable
  refine ⟨fun s inp rest hde => ?barred, fun s => ResetProofs.step_dboot, fun s hde hv => ?sbrkEnabled,
    fun s hde hv => ?sbrkBarred, fun e p s t h => ?entries⟩
  case barred => exact step_withoutDebugEvents (runAtPc_debug_barred (s := s.withInputs rest) hde inp)
  case sbrkEnabled =>
    rw [exec_sbrk_enabled hde]
    exact takeException_debug rfl hv
  case sbrkBarred =>
    rw [exec_sbrk_barred hde]
    exact ExceptionProofs.illins_enters hv
  case entries =>
    rw [takeException_de h]
    exact if_congr (isDebug_iff e) rfl rfl

end Sys2Proof.StatusRegisterProofs
end
